-- ==== Sys2Proof/Word.lean ====
section
/-! DEFINITION. The word types of the Hyzia H9: register words, 64-bit values, bytes and lane masks (R1, R2, R8). -/
namespace Sys2Proof

/-- A 32-bit lane, uniform or control register. -/
abbrev Word := BitVec 32
/-- A 64-bit value: an instruction word, a virtual address, a register pair. -/
abbrev DWord := BitVec 64
/-- One byte of memory. -/
abbrev Byte := BitVec 8
/-- A set of lanes of a group, bit L for lane L. -/
abbrev Mask := BitVec 32

end Sys2Proof
end

