-- ==== Sys2Proof/Syntax.lean ====
section
/-! DEFINITION. The syntax: the form records of the 64-bit word (R28, R33, R40 to R44) and `Instr`, one constructor
for each row of spec/opcode_table.json. A constructor of a word instruction carries the fields of its form; a constructor
of an event carries the event's parameters. -/
namespace Sys2Proof

/-- The R form (R33), fields PG to XOP. -/
structure RWord where
  pg : BitVec 3
  pn : Bool
  d : BitVec 8
  a : BitVec 8
  b : BitVec 8
  c : BitVec 8
  ua : Bool
  ub : Bool
  uc : Bool
  na : Bool
  aa : Bool
  nb : Bool
  ab : Bool
  nc : Bool
  ac : Bool
  xop : BitVec 9
deriving DecidableEq, Repr

/-- The I form (R40). -/
structure IWord where
  pg : BitVec 3
  pn : Bool
  d : BitVec 8
  a : BitVec 8
  im : BitVec 2
  imm : BitVec 32
deriving DecidableEq, Repr

/-- The M form (R41); `cp` is AT in the atomic opcodes. -/
structure MWord where
  pg : BitVec 3
  pn : Bool
  d : BitVec 8
  a : BitVec 8
  b : BitVec 8
  sc : BitVec 2
  ord : BitVec 2
  sz : BitVec 3
  cp : BitVec 2
  au : Bool
  off : BitVec 16
deriving DecidableEq, Repr

/-- The B form (R42). -/
structure BWord where
  pg : BitVec 3
  pn : Bool
  tgt : BitVec 24
  bop : BitVec 26
deriving DecidableEq, Repr

/-- The pair opcodes of R47. -/
inductive PairOp where
  | mov | iadd | isub | imul | imin | imax | iminN | imaxN | and | or | xor | shl | shr | sar | iaddSat | iaddSatN
  | fadd | fmul | fmin | fmax | faddSat | fmulSat
  | paddH | pmulH | pminH | pmaxH | paddB | pmulB | pminB | pmaxB
deriving DecidableEq, Repr

/-- Half of a pair word (R43). -/
structure Half where
  op : PairOp
  d : BitVec 8
  a : BitVec 8
  m9 : BitVec 9
deriving DecidableEq, Repr

/-- A pair word: H0 and H1 (R43). -/
structure PairWord where
  h0 : Half
  h1 : Half
deriving DecidableEq, Repr

/-- The combining operation of an atomic (R171). -/
inductive AtomOp where
  | add | min | max | and | or | xor | exch
deriving DecidableEq, Repr

/-- The element type AT of an atomic (R41). -/
inductive AtomTy where
  | nat | sgn | flt | bf16x2
deriving DecidableEq, Repr

/-- What an inbound UALink access asks for (R333). -/
inductive PeerKind where
  | load
  | store (data : List Byte)
  | atomic (op : AtomOp) (ty : AtomTy) (operand : List Byte)
  | cas (cmp new : List Byte)
deriving DecidableEq, Repr

/-- An inbound UALink access: the source's chip number and tag (R379), the member's context and the address (R332), and whether its
data is poisoned (R147). -/
structure PeerReq where
  chip : Nat
  tag : Nat
  ctxid : Nat
  va : DWord
  size : Nat
  kind : PeerKind
  poison : Bool
deriving DecidableEq, Repr

/-- A partition record of the device manifest (R386). -/
structure PartRecord where
  sect : BitVec 16
  stk : BitVec 8
  world : BitVec 8
  ports : BitVec 16
  wdt : Nat
  fwres : Nat
  reserved : Nat
deriving DecidableEq, Repr

/-- The device manifest (R386); `reserved` holds the bytes that R386 fixes at 0. -/
structure Manifest where
  magic : BitVec 32
  ver : Nat
  stepping : Nat
  serial : DWord
  coreEn : BitVec 192
  debugFlags : BitVec 8
  fwKey : BitVec 512
  podKey : BitVec 512
  parts : List PartRecord
  secure : List (Nat × Nat)
  reserved : Nat
deriving DecidableEq, Repr

/-- The pod configuration (R378, R386): the chip number and the ports that reach each target chip. -/
structure PodConfig where
  chip : Nat
  routes : List (Nat × BitVec 16)
deriving DecidableEq, Repr

/-- What the boot chain of R383 reads from flash: the manifest, the bytes of the management firmware, the supervisor firmware, the lowering
microcode and the pod configuration, the signature of each, the root key, the firmware key and the pod key, the entry named in the supervisor
image header, where in each firmware reserve context 0's top-level table stands, and the bytes that the images place in the firmware
reserves. -/
structure BootImages where
  manifest : Manifest
  manifestSig : List Byte
  mgmt : List Byte
  mgmtSig : List Byte
  super : List Byte
  superSig : List Byte
  micro : List Byte
  microSig : List Byte
  pod : Option PodConfig
  podImage : List Byte
  podSig : List Byte
  rootKey : List Byte
  fwKey : List Byte
  podKey : List Byte
  entry : DWord
  ctx0Root : Nat
  cells : List (Nat × Byte)
deriving DecidableEq, Repr

/-- The host driver's request to create a context (R306, R388): the core whose firmware fills the descriptor, and the
descriptor's fields. -/
structure ContextReq where
  core : Nat
  ctxid : Nat
  ptroot : DWord
  asid : BitVec 16
  part : Nat
  secure : Bool
  prioLim : Nat
  ballast : DWord
  bsize : DWord
  eptab : DWord
  gridLim : BitVec 32
  token : DWord
deriving DecidableEq, Repr

/-- The instructions and events of the machine: one constructor for each row of spec/opcode_table.json. -/
inductive Instr where
  /-- NOP (R88). -/
  | nop (r : RWord)
  /-- EXIT (R88). -/
  | exit (r : RWord)
  /-- BRA (R87). -/
  | bra (r : BWord)
  /-- BRX (R87). -/
  | brx (r : RWord)
  /-- CALL (R87). -/
  | call (r : BWord)
  /-- CALLX (R87). -/
  | callx (r : RWord)
  /-- RET (R87). -/
  | ret (r : RWord)
  /-- IF (R77). -/
  | ifThen (r : BWord)
  /-- ELSE (R78). -/
  | elseW (r : BWord)
  /-- LOOP (R79). -/
  | loopW (r : BWord)
  /-- ENDLOOP (R79). -/
  | endloop (r : BWord)
  /-- BREAK (R80). -/
  | breakW (r : BWord)
  /-- CONT (R80). -/
  | cont (r : BWord)
  /-- SLEEP (R90). -/
  | sleep (r : IWord)
  /-- ILLEGAL_WORD (R58). -/
  | illegalWord (w : BitVec 64) (reason : Nat) (h0 h1 : Bool)
  /-- PAIR_WORD (R44). -/
  | pairWord (r : PairWord)
  /-- IADD (R96). -/
  | iadd (r : RWord)
  /-- IADD_I (R96). -/
  | iaddI (r : IWord)
  /-- IADD3 (R96). -/
  | iadd3 (r : RWord)
  /-- ISUB (R96). -/
  | isub (r : RWord)
  /-- IMUL (R96). -/
  | imul (r : RWord)
  /-- IMUL_I (R96). -/
  | imulI (r : IWord)
  /-- IMULH (R96). -/
  | imulh (r : RWord)
  /-- IMAD (R96). -/
  | imad (r : RWord)
  /-- IMADW (R96). -/
  | imadw (r : RWord)
  /-- IDIV (R97). -/
  | idiv (r : RWord)
  /-- IREM (R97). -/
  | irem (r : RWord)
  /-- IMIN (R96). -/
  | imin (r : RWord)
  /-- IMAX (R96). -/
  | imax (r : RWord)
  /-- ISAD (R96). -/
  | isad (r : RWord)
  /-- IDOT4 (R96). -/
  | idot4 (r : RWord)
  /-- IDOT8 (R96). -/
  | idot8 (r : RWord)
  /-- ICMP (R98). -/
  | icmp (r : RWord)
  /-- SEL (R98). -/
  | sel (r : RWord)
  /-- AND (R98). -/
  | andR (r : RWord)
  /-- AND_I (R98). -/
  | andI (r : IWord)
  /-- OR (R98). -/
  | orR (r : RWord)
  /-- OR_I (R98). -/
  | orI (r : IWord)
  /-- XOR (R98). -/
  | xorR (r : RWord)
  /-- XOR_I (R98). -/
  | xorI (r : IWord)
  /-- LOP3 (R98). -/
  | lop3 (r : RWord)
  /-- SHL (R98). -/
  | shl (r : RWord)
  /-- SHR (R98). -/
  | shr (r : RWord)
  /-- SAR (R98). -/
  | sar (r : RWord)
  /-- SHF (R98). -/
  | shf (r : RWord)
  /-- BFE (R98). -/
  | bfe (r : RWord)
  /-- BFI (R98). -/
  | bfi (r : RWord)
  /-- BREV (R98). -/
  | brev (r : RWord)
  /-- CLZ (R98). -/
  | clz (r : RWord)
  /-- POPC (R98). -/
  | popc (r : RWord)
  /-- FFS (R98). -/
  | ffs (r : RWord)
  /-- PRMT (R98). -/
  | prmt (r : RWord)
  /-- MOV (R99). -/
  | mov (r : RWord)
  /-- MOVI (R99). -/
  | movi (r : IWord)
  /-- MOVI_S (R99). -/
  | movis (r : IWord)
  /-- LEA (R99). -/
  | lea (r : RWord)
  /-- ADD64 (R99). -/
  | add64 (r : RWord)
  /-- ADD64_I (R99). -/
  | add64I (r : IWord)
  /-- SUB64 (R99). -/
  | sub64 (r : RWord)
  /-- MUL64 (R99). -/
  | mul64 (r : RWord)
  /-- CMP64 (R99). -/
  | cmp64 (r : RWord)
  /-- MOVS (R100). -/
  | movs (r : RWord)
  /-- MOVRX (R102). -/
  | movrx (r : RWord)
  /-- MOVWX (R102). -/
  | movwx (r : RWord)
  /-- SHFL (R103). -/
  | shfl (r : RWord)
  /-- VOTE (R103). -/
  | vote (r : RWord)
  /-- REDUX (R103). -/
  | redux (r : RWord)
  /-- MATCH (R103). -/
  | matchL (r : RWord)
  /-- PSET (R103). -/
  | pset (r : RWord)
  /-- P2V (R103). -/
  | p2v (r : RWord)
  /-- V2P (R103). -/
  | v2p (r : RWord)
  /-- FADD (R119). -/
  | fadd (r : RWord)
  /-- FADD_I (R120). -/
  | faddI (r : IWord)
  /-- FMUL (R119). -/
  | fmul (r : RWord)
  /-- FMUL_I (R120). -/
  | fmulI (r : IWord)
  /-- FFMA (R119). -/
  | ffma (r : RWord)
  /-- FMIN (R121). -/
  | fmin (r : RWord)
  /-- FMAX (R121). -/
  | fmax (r : RWord)
  /-- FCMP (R122). -/
  | fcmp (r : RWord)
  /-- FRCP (R123). -/
  | frcp (r : RWord)
  /-- FRSQ (R123). -/
  | frsq (r : RWord)
  /-- FSQRT (R123). -/
  | fsqrt (r : RWord)
  /-- FDIV (R123). -/
  | fdiv (r : RWord)
  /-- FEX2 (R123). -/
  | fex2 (r : RWord)
  /-- FLG2 (R123). -/
  | flg2 (r : RWord)
  /-- FSIN (R123). -/
  | fsin (r : RWord)
  /-- FCOS (R123). -/
  | fcos (r : RWord)
  /-- FTANH (R123). -/
  | ftanh (r : RWord)
  /-- FCLASS (R124). -/
  | fclass (r : RWord)
  /-- FRND (R125). -/
  | frnd (r : RWord)
  /-- DADD (R126). -/
  | dadd (r : RWord)
  /-- DMUL (R126). -/
  | dmul (r : RWord)
  /-- DFMA (R126). -/
  | dfma (r : RWord)
  /-- DMIN (R126). -/
  | dmin (r : RWord)
  /-- DMAX (R126). -/
  | dmax (r : RWord)
  /-- DCMP (R126). -/
  | dcmp (r : RWord)
  /-- DDIV (R126). -/
  | ddiv (r : RWord)
  /-- DSQRT (R126). -/
  | dsqrt (r : RWord)
  /-- PADD2_F16 (R127). -/
  | padd2F16 (r : RWord)
  /-- PMUL2_F16 (R127). -/
  | pmul2F16 (r : RWord)
  /-- PFMA2_F16 (R127). -/
  | pfma2F16 (r : RWord)
  /-- PMIN2_F16 (R127). -/
  | pmin2F16 (r : RWord)
  /-- PMAX2_F16 (R127). -/
  | pmax2F16 (r : RWord)
  /-- PCMP2_F16 (R127). -/
  | pcmp2F16 (r : RWord)
  /-- PADD2_BF16 (R127). -/
  | padd2Bf16 (r : RWord)
  /-- PMUL2_BF16 (R127). -/
  | pmul2Bf16 (r : RWord)
  /-- PFMA2_BF16 (R127). -/
  | pfma2Bf16 (r : RWord)
  /-- PMIN2_BF16 (R127). -/
  | pmin2Bf16 (r : RWord)
  /-- PMAX2_BF16 (R127). -/
  | pmax2Bf16 (r : RWord)
  /-- PCMP2_BF16 (R127). -/
  | pcmp2Bf16 (r : RWord)
  /-- CVT (R128). -/
  | cvt (r : RWord)
  /-- CVTP (R129). -/
  | cvtp (r : RWord)
  /-- FSETM (R132). -/
  | fsetm (r : RWord)
  /-- CLRF (R133). -/
  | clrf (r : RWord)
  /-- LD (R149). -/
  | ld (r : MWord)
  /-- ST (R149). -/
  | st (r : MWord)
  /-- LDRO (R150). -/
  | ldro (r : MWord)
  /-- ROINV (R150). -/
  | roinv (r : RWord)
  /-- LDS (R149). -/
  | lds (r : MWord)
  /-- STS (R149). -/
  | sts (r : MWord)
  /-- STMAP (R138). -/
  | stmap (r : RWord)
  /-- STUNMAP (R138). -/
  | stunmap (r : RWord)
  /-- LDM (R151). -/
  | ldm (r : MWord)
  /-- STM (R151). -/
  | stm (r : MWord)
  /-- PREF (R152). -/
  | pref (r : MWord)
  /-- CCTL_WB (R153). -/
  | cctlWb (r : MWord)
  /-- CCTL_INV (R153). -/
  | cctlInv (r : MWord)
  /-- CCTL_WBINV (R153). -/
  | cctlWbinv (r : MWord)
  /-- CCTL_SYSWB (R153). -/
  | cctlSyswb (r : MWord)
  /-- CCTL_SYSINV (R153). -/
  | cctlSysinv (r : MWord)
  /-- FENCE (R168). -/
  | fence (r : RWord)
  /-- PROBE (R154). -/
  | probe (r : MWord)
  /-- ATOM_ADD (R172). -/
  | atomAdd (r : MWord)
  /-- ATOM_MIN (R172). -/
  | atomMin (r : MWord)
  /-- ATOM_MAX (R172). -/
  | atomMax (r : MWord)
  /-- ATOM_AND (R172). -/
  | atomAnd (r : MWord)
  /-- ATOM_OR (R172). -/
  | atomOr (r : MWord)
  /-- ATOM_XOR (R172). -/
  | atomXor (r : MWord)
  /-- ATOM_EXCH (R172). -/
  | atomExch (r : MWord)
  /-- CAS (R172). -/
  | cas (r : MWord)
  /-- RED_ADD (R172). -/
  | redAdd (r : MWord)
  /-- RED_MIN (R172). -/
  | redMin (r : MWord)
  /-- RED_MAX (R172). -/
  | redMax (r : MWord)
  /-- RED_AND (R172). -/
  | redAnd (r : MWord)
  /-- RED_OR (R172). -/
  | redOr (r : MWord)
  /-- RED_XOR (R172). -/
  | redXor (r : MWord)
  /-- ATOMS_ADD (R172). -/
  | atomsAdd (r : MWord)
  /-- ATOMS_MIN (R172). -/
  | atomsMin (r : MWord)
  /-- ATOMS_MAX (R172). -/
  | atomsMax (r : MWord)
  /-- ATOMS_AND (R172). -/
  | atomsAnd (r : MWord)
  /-- ATOMS_OR (R172). -/
  | atomsOr (r : MWord)
  /-- ATOMS_XOR (R172). -/
  | atomsXor (r : MWord)
  /-- ATOMS_EXCH (R172). -/
  | atomsExch (r : MWord)
  /-- CASS (R172). -/
  | cass (r : MWord)
  /-- BAR (R176). -/
  | bar (r : RWord)
  /-- TBINIT (R179). -/
  | tbinit (r : RWord)
  /-- TBARR (R179). -/
  | tbarr (r : RWord)
  /-- TBEXP (R179). -/
  | tbexp (r : RWord)
  /-- TBWAIT (R179). -/
  | tbwait (r : RWord)
  /-- TBTEST (R179). -/
  | tbtest (r : RWord)
  /-- TBINV (R179). -/
  | tbinv (r : RWord)
  /-- CPY (R195). -/
  | cpy (r : RWord)
  /-- CPYT (R198). -/
  | cpyt (r : RWord)
  /-- CPYF (R195). -/
  | cpyf (r : RWord)
  /-- GATH (R202). -/
  | gath (r : RWord)
  /-- SCAT (R202). -/
  | scat (r : RWord)
  /-- WAITC (R203). -/
  | waitc (r : RWord)
  /-- CPYQ (R204). -/
  | cpyq (r : RWord)
  /-- CPYX (R205). -/
  | cpyx (r : RWord)
  /-- MMA (R225). -/
  | mma (r : RWord)
  /-- MMAQ (R226). -/
  | mmaq (r : RWord)
  /-- MMAQS (R222). -/
  | mmaqs (r : RWord)
  /-- MZERO (R230). -/
  | mzero (r : RWord)
  /-- MCVT (R231). -/
  | mcvt (r : RWord)
  /-- FSLOT (R232). -/
  | fslot (r : RWord)
  /-- LAUNCH (R251). -/
  | launch (r : RWord)
  /-- CWAIT (R252). -/
  | cwait (r : RWord)
  /-- REGACQ (R253). -/
  | regacq (r : RWord)
  /-- REGREL (R253). -/
  | regrel (r : RWord)
  /-- TREG (R268). -/
  | treg (r : RWord)
  /-- TFREE (R269). -/
  | tfree (r : RWord)
  /-- TSEND (R271). -/
  | tsend (r : RWord)
  /-- TWAIT (R275). -/
  | twait (r : RWord)
  /-- TPOLL (R275). -/
  | tpoll (r : RWord)
  /-- TMASK (R277). -/
  | tmask (r : RWord)
  /-- TPERM_ADD (R270). -/
  | tpermAdd (r : RWord)
  /-- TPERM_REMOVE (R270). -/
  | tpermRemove (r : RWord)
  /-- TPERM_CLEAR (R270). -/
  | tpermClear (r : RWord)
  /-- TRET (R279). -/
  | tret (r : RWord)
  /-- SYSCALL (R297). -/
  | syscall (r : IWord)
  /-- SYSCALLB (R298). -/
  | syscallb (r : IWord)
  /-- TRAP (R300). -/
  | trapW (r : IWord)
  /-- BKPT (R300). -/
  | bkpt (r : IWord)
  /-- SRET (R305). -/
  | sret (r : RWord)
  /-- MQPOP (R301). -/
  | mqpop (r : RWord)
  /-- MQRPL_RETRY (R302). -/
  | mqrplRetry (r : RWord)
  /-- MQRPL_NEXT (R302). -/
  | mqrplNext (r : RWord)
  /-- MQRPL_PARK (R302). -/
  | mqrplPark (r : RWord)
  /-- MQRPL_RESUME (R302). -/
  | mqrplResume (r : RWord)
  /-- MQRPL_FAIL (R302). -/
  | mqrplFail (r : RWord)
  /-- MQRPL_ACK (R302). -/
  | mqrplAck (r : RWord)
  /-- VSRD (R303). -/
  | vsrd (r : RWord)
  /-- VSWR (R303). -/
  | vswr (r : RWord)
  /-- CSRRD (R304). -/
  | csrrd (r : IWord)
  /-- CSRWR (R304). -/
  | csrwr (r : IWord)
  /-- WDPET (R389). -/
  | wdpet (r : IWord)
  /-- SWAPOUT_RETURN (R308). -/
  | swapoutReturn (r : RWord)
  /-- SWAPOUT_STOP (R308). -/
  | swapoutStop (r : RWord)
  /-- SWAPOUT_DISCARD (R308). -/
  | swapoutDiscard (r : RWord)
  /-- SWAPIN (R309). -/
  | swapin (r : RWord)
  /-- HQPUT (R310). -/
  | hqput (r : RWord)
  /-- SIGPOST_USER (R311). -/
  | sigpostUser (r : RWord)
  /-- SIGPOST_STOP (R311). -/
  | sigpostStop (r : RWord)
  /-- SIGPOST_CONT (R311). -/
  | sigpostCont (r : RWord)
  /-- SIGPOST_KILL (R311). -/
  | sigpostKill (r : RWord)
  /-- HALT (R305). -/
  | halt (r : RWord)
  /-- PREEMPT (R312). -/
  | preempt (r : RWord)
  /-- PTINV_RANGE (R336). -/
  | ptinvRange (r : RWord)
  /-- PTINV_ASID (R336). -/
  | ptinvAsid (r : RWord)
  /-- PTINV_PARTITION (R336). -/
  | ptinvPartition (r : RWord)
  /-- TCINV (R352). -/
  | tcinv (r : RWord)
  /-- TCPIN (R354). -/
  | tcpin (r : RWord)
  /-- TCPIN_UNPIN (R354). -/
  | tcpinUnpin (r : RWord)
  /-- FDIVA (R55). -/
  | fdiva (r : RWord)
  /-- IMAD24 (R55). -/
  | imad24 (r : RWord)
  /-- HSEL2_LL (R55). -/
  | hsel2Ll (r : RWord)
  /-- HSEL2_LH (R55). -/
  | hsel2Lh (r : RWord)
  /-- HSEL2_HL (R55). -/
  | hsel2Hl (r : RWord)
  /-- HSEL2_HH (R55). -/
  | hsel2Hh (r : RWord)
  /-- LDNC (R356). -/
  | ldnc (r : MWord)
  /-- CVTH4 (R55). -/
  | cvth4 (r : RWord)
  /-- VOTEX (R55). -/
  | votex (r : RWord)
  /-- HPRI (R54). -/
  | hpri (r : RWord)
  /-- HLIVE (R54). -/
  | hlive (r : RWord)
  /-- HQLEN (R54). -/
  | hqlen (r : RWord)
  /-- HLOC (R54). -/
  | hloc (r : RWord)
  /-- HINT_UNIMPLEMENTED (R53). -/
  | hintUnimplemented (code : BitVec 6) (r : RWord)
  /-- TRACE (R364). -/
  | trace (r : RWord)
  /-- MARK (R364). -/
  | mark (r : IWord)
  /-- WPSET (R360). -/
  | wpset (r : RWord)
  /-- WPSET_BP (R362). -/
  | wpsetBp (r : RWord)
  /-- WPCLR (R360). -/
  | wpclr (r : RWord)
  /-- WPCLR_BP (R362). -/
  | wpclrBp (r : RWord)
  /-- PERFRD (R365). -/
  | perfrd (r : RWord)
  /-- PREEMPT_RELEASE (R312). -/
  | preemptRelease (r : RWord)
  /-- ENDIF (R78). -/
  | endif
  /-- YIELD (R89). -/
  | yield
  /-- GANGBAR (R254). -/
  | gangbar
  /-- RESOLVE_AFTER_TRET (R279). -/
  | resolveAfterTret (key : Nat)
  /-- STOP_SECONDARY (R82). -/
  | stopSecondary (key : Nat)
  /-- SLEEP_WAKE (R90). -/
  | sleepWake (key : Nat) (slot : Bool)
  /-- ENGINE_SLOT_GRANT (R189). -/
  | engineSlotGrant (core : Nat) (gather : Bool)
  /-- ENGINE_BYTES_DONE (R180). -/
  | engineBytesDone (core op n : Nat)
  /-- ENGINE_OP_COMPLETE (R190). -/
  | engineOpComplete (core op : Nat)
  /-- ENGINE_ACCESS_FAULT (R207). -/
  | engineAccessFault (core op : Nat)
  /-- ENGINE_OP_FAIL (R207). -/
  | engineOpFail (core op link : Nat)
  /-- QUAD_FORM (R227). -/
  | quadForm (blk quad : Nat)
  /-- REGACQ_GRANT (R247). -/
  | regacqGrant (core : Nat)
  /-- REGISTER_STALL (R248). -/
  | registerStall (core : Nat)
  /-- CORE_WORK_REQUEST (R241). -/
  | coreWorkRequest (core : Nat)
  /-- GANG_ENLIST_TIMEOUT (R244). -/
  | gangEnlistTimeout (part seq : Nat)
  /-- DISPLACE_WAITING_PARENT (R256). -/
  | displaceWaitingParent (part : Nat)
  /-- DISPLACE_HIGHER_BLOCK (R256). -/
  | displaceHigherBlock (part seq : Nat)
  /-- BLOCK_RETIRE (R88). -/
  | blockRetire (blk : Nat)
  /-- GRID_RETIRE (R239). -/
  | gridRetire (part seq : Nat)
  /-- TETHER_ENTRY (R278). -/
  | tetherEntry (key : Nat)
  /-- HOST_DOORBELL_STORE (R273). -/
  | hostDoorbellStore (page off : Nat) (size : Nat) (value : BitVec 64)
  /-- MOORING_ENTRY_TAKE (R291). -/
  | mooringEntryTake (core : Nat)
  /-- HOST_REPLY (R310). -/
  | hostReply (core : Nat) (tag : BitVec 32) (reply : BitVec 64) (body : List (BitVec 8))
  /-- CALL_GETID (R299). -/
  | callGetid (core handle : Nat)
  /-- CALL_DMAP (R411). -/
  | callDmap (core handle : Nat) (base : BitVec 64)
  /-- CALL_DUNMAP (R411). -/
  | callDunmap (core handle : Nat)
  /-- CALL_SIGMASK (R299). -/
  | callSigmask (core handle : Nat)
  /-- CALL_FORWARDED (R410). -/
  | callForwarded (core handle : Nat)
  /-- PERMISSION_CACHE_FILL (R143). -/
  | permissionCacheFill (core ctx : Nat) (va : BitVec 64)
  /-- LOAD_PERFORMED (R146). -/
  | loadPerformed (tag : Nat) (data : List (BitVec 8)) (poison : Bool) (fault : Nat)
  /-- L1_EVICTION (R140). -/
  | l1Eviction (core asid : Nat) (va : BitVec 64)
  /-- POSTED_WRITE_FAIL (R186). -/
  | postedWriteFail (tag : Nat) (reason : Nat)
  /-- LINK_RESPONSE_TIMEOUT (R334). -/
  | linkResponseTimeout (tag : Nat)
  /-- HOST_SNOOP (R183). -/
  | hostSnoop (pa : Nat) (own : Bool)
  /-- HOST_HDM_ACCESS (R183). -/
  | hostHdmAccess (pa : Nat) (size : Nat) (write : Bool) (data : List (BitVec 8)) (poison : Bool)
  /-- UALINK_INBOUND_ACCESS (R333). -/
  | ualinkInboundAccess (req : PeerReq)
  /-- UALINK_TETHER_REQUEST (R379). -/
  | ualinkTetherRequest (srcChip : Nat) (tag : Nat) (sender : BitVec 32) (ctxid : Nat) (ep : Nat) (payload : BitVec 64)
  /-- UALINK_PORT_FAIL (R378). -/
  | ualinkPortFail (port : Nat)
  /-- KEPT_RESPONSE_EXPIRE (R379). -/
  | keptResponseExpire (srcChip ctx : Nat)
  /-- TRANSLATION_MISS (R346). -/
  | translationMiss (key : Nat) (slot : Bool) (full : Bool)
  /-- TRACE_DRAIN (R364). -/
  | traceDrain (core : Nat)
  /-- CORE_UNCORRECTABLE_ERROR (R316). -/
  | coreUncorrectableError (core unit : Nat)
  /-- SQTAIL_WRITE (R371). -/
  | sqtailWrite (part : Nat) (tail : BitVec 32) (entries : List (List (BitVec 8)))
  /-- SUBMIT_LAUNCH (R371). -/
  | submitLaunch (part ctxid : Nat) (va : BitVec 64)
  /-- SUBMIT_LOAD (R343). -/
  | submitLoad (part ctxid : Nat) (addr size : BitVec 64) (places : List (BitVec 64))
  /-- SUBMIT_INVAL (R371). -/
  | submitInval (part : Nat) (ctl start count : BitVec 64)
  /-- SUBMIT_RECLAIM (R382). -/
  | submitReclaim (part ctxid : Nat) (token : BitVec 64)
  /-- SUBMIT_BINDDB (R373). -/
  | submitBinddb (part ctxid : Nat) (a0 a1 : BitVec 64)
  /-- SUBMIT_WINDOW (R376). -/
  | submitWindow (part ctxid : Nat) (a0 a1 a2 : BitVec 64)
  /-- HOST_BLOCK_WRITE (R370). -/
  | hostBlockWrite (part off : Nat) (value : BitVec 64)
  /-- PEER_WINDOW_WRITE (R375). -/
  | peerWindowWrite (win req off : Nat) (data : List (BitVec 8)) (poison : Bool)
  /-- PEER_WINDOW_READ (R375). -/
  | peerWindowRead (win req off size : Nat)
  /-- PEER_DOORBELL_WRITE (R377). -/
  | peerDoorbellWrite (off : Nat) (size : Nat) (value : BitVec 64)
  /-- PEER_UNSUPPORTED_REQUEST (R374). -/
  | peerUnsupportedRequest (req : Nat)
  /-- HOST_PORT_DOWN (R381). -/
  | hostPortDown
  /-- GRACE_EXPIRE (R382). -/
  | graceExpire (part : Nat)
  /-- COLD_RESET (R383). -/
  | coldReset (img : BootImages)
  /-- WATCHDOG_EXPIRE (R389). -/
  | watchdogExpire (part : Nat)
  /-- PARTITION_RESET_REQUEST (R390). -/
  | partitionResetRequest (part : Nat)
  /-- DEBUG_STOP_ARM (R358). -/
  | debugStopArm (tick : BitVec 64) (part : Option Nat)
  /-- DEBUG_STOP (R358). -/
  | debugStop (part : Option Nat)
  /-- SPDM_CERT (R385). -/
  | spdmCert
  /-- SPDM_CHAL (R385). -/
  | spdmChal (nonce : List (BitVec 8))
  /-- SPDM_MEAS (R385). -/
  | spdmMeas
  /-- EXTEND (R383). -/
  | extend (reg : Nat) (digest : BitVec 512)
  /-- LAST_EVENTS_READ (R367). -/
  | lastEventsRead
  /-- POWER_CAP (R391). -/
  | powerCap (watts : Nat)
  /-- GOVERNOR_TICK (R393). -/
  | governorTick (mhz : Nat)
  /-- RAIL_CURRENT_THROTTLE (R393). -/
  | railCurrentThrottle (sect : Nat) (withhold : Bool)
  /-- THERMAL_LIMIT (R391). -/
  | thermalLimit (celsius : Nat) (mhz : Nat)
  /-- POSTED_WRITE_ACK (R160). -/
  | postedWriteAck (tag : Nat)
  /-- TETHER_APERTURE_RESPONSE (R271). -/
  | tetherApertureResponse (tag : Nat) (status : Nat)
  /-- HOST_PORT_UP (R369). -/
  | hostPortUp (cxl atomicOp : Bool)
  /-- UALINK_PORT_RETRAIN (R380). -/
  | ualinkPortRetrain (port : Nat)
  /-- MEMORY_POISON_FOUND (R367). -/
  | memoryPoisonFound (pa : Nat)
  /-- PERMISSION_CACHE_EVICTION (R325). -/
  | permissionCacheEviction (core idx : Nat)
  /-- CREATE_CONTEXT (R306). -/
  | createContext (req : ContextReq)
deriving DecidableEq, Repr

end Sys2Proof
end

