-- ==== Sys2Proof/Machine/Rules.lean ====
section
/-! DEFINITION. The field rules of every word (R29 to R47 and the encoding tables of the class chapters), as data: for
each word the kind of each register field, the modifiers it takes, and the reasons of R59 that its other fields break. -/
namespace Sys2Proof

/-- Bits lo to lo + n - 1 of x. -/
def bitsOf (x lo n : Nat) : Nat := x / 2 ^ lo % 2 ^ n

/-- What a register field of a word names (R29): nothing, a lane run, a uniform run that the opcode fixes, a uniform run
with its U bit set, a run that its U bit makes lane or uniform, a predicate, or a constant that the rule checks itself. The
first number is the length of the run and the second the multiple at which it starts. -/
inductive Field where
  | zero
  | lane (n al : Nat)
  | uni (n al : Nat)
  | uniU (n al : Nat)
  | gen (n al : Nat)
  | pred
  | lit
deriving DecidableEq, Repr

/-- Which of the N and A bits a source field takes (R36). -/
inductive Mods where
  | no | neg | both
deriving DecidableEq, Repr

/-- The fields of a full word that the common rules read. -/
structure View where
  pg : Nat
  pn : Bool
  d : Nat
  a : Nat
  b : Nat
  c : Nat
  ua : Bool
  ub : Bool
  uc : Bool
  na : Bool
  aa : Bool
  nb : Bool
  ab : Bool
  nc : Bool
  ac : Bool
deriving DecidableEq, Repr

/-- The rule of one word: its guard (R31, R32), its fields, and the reasons broken by what the fields do not cover. -/
structure OpRule where
  guard : Bool
  d : Field
  a : Field
  b : Field
  c : Field
  ma : Mods
  mb : Mods
  mc : Mods
  bad : List Nat
deriving DecidableEq, Repr

/-- The fields of an R-form word (R33). -/
def viewR (r : RWord) : View :=
  { pg := r.pg.toNat, pn := r.pn, d := r.d.toNat, a := r.a.toNat, b := r.b.toNat, c := r.c.toNat, ua := r.ua, ub := r.ub,
    uc := r.uc, na := r.na, aa := r.aa, nb := r.nb, ab := r.ab, nc := r.nc, ac := r.ac }
/-- The fields of an I-form word (R40). -/
def viewI (r : IWord) : View :=
  { pg := r.pg.toNat, pn := r.pn, d := r.d.toNat, a := r.a.toNat, b := 0, c := 0, ua := false, ub := false, uc := false,
    na := false, aa := false, nb := false, ab := false, nc := false, ac := false }
/-- The fields of an M-form word (R41): AU is the U bit of A. -/
def viewM (r : MWord) : View :=
  { pg := r.pg.toNat, pn := r.pn, d := r.d.toNat, a := r.a.toNat, b := r.b.toNat, c := 0, ua := r.au, ub := false,
    uc := false, na := false, aa := false, nb := false, ab := false, nc := false, ac := false }

/-- The reasons that a field breaks (R29, R34): 4 for an unused field that is not zero, 6 for a register class error. -/
def fieldBad (f : Field) (v : Nat) (u : Bool) : List Nat :=
  match f with
  | .zero => (if v = 0 then [] else [4]) ++ (if u then [6] else [])
  | .lane _ al => if v % al ≠ 0 ∨ u then [6] else []
  | .uni _ al => if 64 ≤ v ∨ v % al ≠ 0 ∨ u then [6] else []
  | .uniU _ al => if 64 ≤ v ∨ v % al ≠ 0 ∨ !u then [6] else []
  | .gen _ al => if v % al ≠ 0 ∨ (u ∧ 64 ≤ v) then [6] else []
  | .pred => if 8 ≤ v ∨ u then [6] else []
  | .lit => if u then [6] else []
/-- Reason 8 where a modifier bit is set that the field does not take (R34, R36). -/
def modBad (m : Mods) (n a : Bool) : List Nat :=
  match m with
  | .no => if n ∨ a then [8] else []
  | .neg => if a then [8] else []
  | .both => []
/-- Every reason of R59 that a full word's fields break. -/
def ruleBad (v : View) (k : OpRule) : List Nat :=
  (if (v.pg = 7 ∧ v.pn) ∨ (!k.guard ∧ v.pg ≠ 7) then [7] else []) ++ fieldBad k.d v.d false ++ fieldBad k.a v.a v.ua ++
    fieldBad k.b v.b v.ub ++ fieldBad k.c v.c v.uc ++ modBad k.ma v.na v.aa ++ modBad k.mb v.nb v.ab ++
    modBad k.mc v.nc v.ac ++ k.bad

/-- A word that takes no guard (R32). -/
def OpRule.unguarded (k : OpRule) : OpRule := { k with guard := false }
/-- The rule with another D field. -/
def OpRule.withD (k : OpRule) (f : Field) : OpRule := { k with d := f }
/-- The rule with another A field. -/
def OpRule.withA (k : OpRule) (f : Field) : OpRule := { k with a := f }
/-- The rule with further broken reasons. -/
def OpRule.also (k : OpRule) (l : List Nat) : OpRule := { k with bad := k.bad ++ l }

/-- Bit k of XOP. -/
def xbit (r : RWord) (k : Nat) : Bool := r.xop.toNat / 2 ^ k % 2 == 1
/-- Bits lo to lo + n - 1 of XOP. -/
def xf (r : RWord) (lo n : Nat) : Nat := bitsOf r.xop.toNat lo n
/-- Reason 5 where the condition holds. -/
def seg5 (b : Bool) : List Nat := if b then [5] else []

/-- The modifiers of a source under the word's type TY (R36, R92). -/
def tyMods (r : RWord) : Mods := if xf r 7 2 = 1 then .both else .neg
/-- Whether a source field with its U bit is a lane source, which UD = 1 refuses (R35). A predicate is a lane source too. -/
def laneSource (f : Field) (u : Bool) : Bool :=
  match f with
  | .gen _ _ => !u
  | .lane _ _ => true
  | .pred => true
  | _ => false
/-- TY, SAT and OPX of the integer class (R92): the types and SAT that the row takes, the mask of the XOP bits it uses. -/
def intBad (r : RWord) (tys : List Nat) (sat : Bool) (used : Nat) : List Nat :=
  (if tys.contains (xf r 7 2) then [] else [5]) ++ (if xbit r 6 && !sat then [5] else []) ++
    (if (xf r 1 5 * 2) &&& (62 - used) = 0 then [] else [4])
/-- An integer row with a register destination of dn registers (R35, R92). -/
def intRule (r : RWord) (tys : List Nat) (sat : Bool) (used dn : Nat) (a b c : Field) (ma mb mc : Mods)
    (extra : List Nat) : OpRule :=
  { guard := true, d := if xbit r 0 then .uni dn dn else .lane dn dn, a, b, c, ma, mb, mc,
    bad := intBad r tys sat used ++ extra ++
      (if xbit r 0 && (laneSource a r.ua || laneSource b r.ub || laneSource c r.uc) then [6] else []) }
/-- An integer row with a predicate destination (R98): UD = 1 is reason 6. -/
def intPredRule (r : RWord) (tys : List Nat) (used : Nat) (a b c : Field) (ma mb mc : Mods) (extra : List Nat) : OpRule :=
  { guard := true, d := .pred, a, b, c, ma, mb, mc,
    bad := intBad r tys false used ++ extra ++ (if xbit r 0 then [6] else []) }
/-- The condition cc of ICMP and CMP64 (R98): 110 and 111 are refused, and under .b all but EQ and NE. -/
def ccBad (r : RWord) : List Nat := seg5 (xf r 1 3 > 5 || (xf r 7 2 == 0 && xf r 1 3 > 1))
/-- A rule with UD refused (R102, R103): the destination is a lane field whatever UD. -/
def noUd (r : RWord) (k : OpRule) : OpRule :=
  { k with d := match k.d with | .uni n al => .lane n al | f => f, bad := k.bad ++ (if xbit r 0 then [6] else []) }
/-- LOP3 (R92, R98): XOP<8:1> is the table, no type. -/
def tblRule (r : RWord) (a b c : Field) : OpRule :=
  { guard := true, d := if xbit r 0 then .uni 1 1 else .lane 1 1, a, b, c, ma := .neg, mb := .neg, mc := .neg,
    bad := if xbit r 0 && (laneSource a r.ua || laneSource b r.ub || laneSource c r.uc) then [6] else [] }
/-- PSET (R103). -/
def psetRule (r : RWord) : OpRule :=
  { guard := true, d := .pred, a := .pred, b := .pred, c := .pred, ma := .no, mb := .no, mc := .no,
    bad := if xbit r 0 then [6] else [] }
/-- MOVS (R100): A is the number of a special register. -/
def movsRule (r : RWord) : OpRule :=
  let n := if xbit r 1 then 2 else 1
  { guard := true, d := if xbit r 0 then .uni n n else .lane n n, a := .lit, b := .zero, c := .zero, ma := .no, mb := .no,
    mc := .no, bad := intBad r [0] false 2 ++ seg5 (r.a.toNat > 0x14 || (xbit r 1 && r.a.toNat != 0x10)) ++
      (if xbit r 0 && r.a.toNat == 0 then [6] else []) }
/-- VOTE (R103): a predicate destination, or under MASK a lane or uniform register. -/
def voteRule (r : RWord) : OpRule :=
  let mask := xf r 1 2 == 3
  { guard := true, d := if mask then (if xbit r 5 then .uni 1 1 else .lane 1 1) else .pred, a := .pred, b := .zero,
    c := .zero, ma := .no, mb := .no, mc := .no,
    bad := intBad r [0] false 46 ++ seg5 (xbit r 5 && !mask) ++ (if xbit r 0 then [6] else []) }
/-- REDUX (R103). -/
def reduxRule (r : RWord) : OpRule :=
  let op := xf r 1 3
  { guard := true, d := if xbit r 5 then .uni 1 1 else .lane 1 1, a := .gen 1 1, b := .zero, c := .zero, ma := tyMods r,
    mb := .no, mc := .no,
    bad := intBad r (if op ≤ 2 then [1, 2] else [0]) (op == 0) 46 ++ seg5 (op > 5) ++ (if xbit r 0 then [6] else []) }

/-- An I-form row (R40): the immediate kinds it takes. -/
def iRule (r : IWord) (d a : Field) (ims : List Nat) (extra : List Nat) : OpRule :=
  { guard := true, d, a, b := .zero, c := .zero, ma := .no, mb := .no, mc := .no,
    bad := (if ims.contains r.im.toNat then [] else [5]) ++ extra }
/-- A system or debug I-form row (R40): D = A = 0, IM = 00, and IMM32 below 2^width. -/
def iSys (r : IWord) (width : Nat) : OpRule :=
  iRule r .zero .zero [0] (if r.imm.toNat < 2 ^ width then [] else [4])
/-- Whether the integer n is exact in FP32: its odd part lies below 2^24. -/
def exactF32 (n : Int) : Bool := n.natAbs == 0 || n.natAbs % 2 ^ (Nat.log2 n.natAbs - 23) == 0
/-- FADD and FMUL immediates (R120): under IM = 00 the integer must be exact in FP32. -/
def fpImmBad (r : IWord) : List Nat := seg5 (r.im.toNat == 0 && !exactF32 r.imm.toInt)
/-- The control register numbers of R289, with true for those of access RW. -/
def csrRw (n : Nat) : Option Bool :=
  if n ≤ 8 ∨ (0x20 ≤ n ∧ n ≤ 0x23) then some true
  else if (0x10 ≤ n ∧ n ≤ 0x18) ∨ (0x24 ≤ n ∧ n ≤ 0x26) then some false
  else none
/-- CSRRD and CSRWR (R289; 0x027 is WDPET of R389, which is write-only and reads 0 under R3): another number is reason 5, and so is a
write of an RO register. -/
def csrBad (r : IWord) (wr : Bool) : List Nat :=
  match csrRw (r.imm.toNat % 4096) with
  | some rw => seg5 (wr && !rw)
  | none => seg5 (r.imm.toNat % 4096 != 0x27)

/-- RM, SCL and SAT in the layout of R37: the modes beyond RN, SAT with SCL, and SR, as the row takes them. SR off CVT and CVTP is reason 8
alone (DEDUCED, log 61: R117 names 5 for a mode that a row does not list, and R59 names 8 for SR). -/
def fpBad (r : RWord) (rms sat sr : Bool) : List Nat :=
  if xbit r 8 then [8] else
    let rm := xf r 1 3
    (if rm > 4 || (0 < rm && rm < 4 && !rms) then [5] else []) ++ (if rm == 4 && !sr then [8] else []) ++
      (if (xbit r 7 || xf r 4 3 != 0) && !sat then [8] else [])
/-- UD of the floating class, which the packed-select layout does not have (R37, R39). -/
def fpUd (r : RWord) : Bool := xbit r 0 && !xbit r 8
/-- A floating row with a register destination of w registers (R117). -/
def fpRule (r : RWord) (rms sat : Bool) (w : Nat) (a b c : Field) (ma mb mc : Mods) : OpRule :=
  { guard := true, d := if fpUd r then .uni w w else .lane w w, a, b, c, ma, mb, mc,
    bad := fpBad r rms sat false ++
      (if fpUd r && (laneSource a r.ua || laneSource b r.ub || laneSource c r.uc) then [6] else []) }
/-- The condition of FCMP, DCMP and PCMP2 in C (R122). -/
def condBad (r : RWord) : List Nat :=
  (if r.c.toNat < 16 then [] else [4]) ++ seg5 (r.c.toNat % 16 > 7)
/-- FCMP and DCMP (R122). -/
def fcmpRule (r : RWord) (w : Nat) : OpRule :=
  { guard := true, d := .pred, a := .gen w w, b := .gen w w, c := .lit, ma := .both, mb := .both, mc := .no,
    bad := fpBad r false false false ++ condBad r ++ (if fpUd r then [6] else []) }
/-- FCLASS (R124): C names the format. -/
def fclassRule (r : RWord) : OpRule :=
  let w := if r.c.toNat % 16 = 0 then 2 else 1
  { fpRule r false false 1 (.gen w w) .zero .lit .both .no .no with
    bad := (fpRule r false false 1 (.gen w w) .zero .lit .both .no .no).bad ++ (if r.c.toNat < 16 then [] else [4]) ++
      seg5 (r.c.toNat % 16 > 5) }
/-- A packed row, in the layout of R37 or in the packed-select layout of R39. -/
def packRule (r : RWord) (rms sat : Bool) (c : Field) (mc : Mods) (extra : List Nat) : OpRule :=
  let k := fpRule r rms sat 1 (.gen 1 1) (.gen 1 1) c .both .both mc
  if xbit r 8 then
    { k with bad := extra ++ seg5 (xf r 6 2 = 3) ++ (if xf r 6 2 = 0 && (xbit r 2 || xbit r 5) then [4] else []) }
  else { k with bad := k.bad ++ extra }

/-- Width of a format code of R114. -/
def fmtWidth (c : Nat) : Nat := [64, 32, 16, 16, 8, 8, 64, 64, 32, 32, 16, 16, 8, 8, 4, 4].getD c 32
/-- Whether a format code is floating. -/
def fmtFloat (c : Nat) : Bool := c < 6
/-- Whether a format code is a natural format. -/
def fmtNat (c : Nat) : Bool := 6 ≤ c && c % 2 == 1
/-- What CVT and CVTP share (R128): the reasons, given the destination and source codes. RM and SCL stand in the layout of R37 alone. -/
def cvtBad (r : RWord) (df sf : Nat) : List Nat :=
  fpBad r true true true ++
    (if xbit r 8 then [] else seg5 (!fmtFloat df && !fmtFloat sf && xf r 1 3 != 0) ++
      (if xf r 4 3 != 0 && !fmtFloat sf then [8] else []))
/-- The rule of CVT and CVTP with nd destination and na source registers. The rbits register C takes no modifier (DESIGN CHOICE, log 61: no
rule says whether it does). -/
def cvtForm (r : RWord) (nd na : Nat) (bad : List Nat) : OpRule :=
  let sr := xf r 1 3 = 4 && !xbit r 8
  let c : Field := if sr then .gen 1 1 else .zero
  { guard := true, d := if fpUd r then .uni nd nd else .lane nd nd, a := .gen na na, b := .lit, c,
    ma := if fmtNat (r.b.toNat % 16) then .neg else .both, mb := .no, mc := .no,
    bad := cvtBad r (r.b.toNat / 16) (r.b.toNat % 16) ++ bad ++
      (if fpUd r && (!r.ua || laneSource c r.uc) then [6] else []) }
/-- CVT (R128). -/
def cvtRule (r : RWord) : OpRule :=
  let df := r.b.toNat / 16
  let sf := r.b.toNat % 16
  cvtForm r (if fmtWidth df = 64 then 2 else 1) (if fmtWidth sf = 64 then 2 else 1) (seg5 (df == sf))
/-- CVTP (R129). -/
def cvtpRule (r : RWord) : OpRule :=
  let df := r.b.toNat / 16
  let sf := r.b.toNat % 16
  let ok (c : Nat) := [1, 2, 3, 4, 5, 12, 13, 14, 15].contains c
  if ok df && ok sf && fmtWidth df != fmtWidth sf && (fmtFloat df || fmtFloat sf) then
    let n := 32 / min (fmtWidth df) (fmtWidth sf)
    cvtForm r (n * fmtWidth df / 32) (n * fmtWidth sf / 32) []
  else cvtForm r 1 1 [5]
/-- FSETM (R132). -/
def fsetmRule (r : RWord) : OpRule :=
  { guard := true, d := .uni 1 1, a := .uniU 1 1, b := .lit, c := .uniU 1 1, ma := .no, mb := .no, mc := .no,
    bad := fpBad r false false false ++ seg5 (r.b.toNat != 0x13 && r.b.toNat != 0x14) ++ (if fpUd r then [] else [6]) }
/-- CLRF (R133). -/
def clrfRule (r : RWord) : OpRule :=
  { guard := true, d := .uni 1 1, a := .uniU 1 1, b := .zero, c := .zero, ma := .no, mb := .no, mc := .no,
    bad := fpBad r false false false ++ (if fpUd r then [] else [6]) }

/-- A row without modifiers whose XOP bits outside `used` are 0 (reason 4). -/
def plain (r : RWord) (d a b c : Field) (used : Nat) (extra : List Nat) : OpRule :=
  { guard := true, d, a, b, c, ma := .no, mb := .no, mc := .no,
    bad := (if r.xop.toNat &&& (511 - used) = 0 then [] else [4]) ++ extra }
/-- A transfer whose A is its target pair (R86): the pair takes no modifier, and its N and A bits are bits that must be 0. -/
def xferRule (r : RWord) (d : Field) : OpRule :=
  { (plain r d (.uniU 2 2) .zero .zero 0 (if r.na || r.aa then [4] else [])).unguarded with ma := .both }
/-- FENCE (R168): the U, N and A bits are fields that must be 0, reason 4. -/
def fenceBad (r : RWord) : List Nat :=
  seg5 (xf r 2 2 = 0 || xf r 0 2 = 0) ++ (if r.ua || r.ub || r.uc || r.na || r.aa || r.nb || r.ab || r.nc || r.ac then [4] else [])
/-- A transaction-barrier row (R178): BY, IX and TB in XOP, the number in C under IX. -/
def tbRule (r : RWord) (by' : Bool) (d a b : Field) : OpRule :=
  let ix := xbit r 7
  plain r d a b (if ix then .uniU 1 1 else .zero) 0x1FE
    ((if xbit r 8 && !by' then [8] else []) ++ (if ix && xf r 1 6 != 0 then [4] else []))
/-- The spaces DS and SS of CPY and CPYF (R193): 10 and 11 are refused, and CP must be 0 when neither side is generic. On
CPYF, XOP<5:4> is 0. -/
def spBad (r : RWord) (cpy : Bool) : List Nat :=
  seg5 (xf r 6 2 > 1) ++ (if cpy then seg5 (xf r 4 2 > 1) else if xf r 4 2 = 0 then [] else [4]) ++
    seg5 (xf r 2 2 != 0 && xf r 6 2 == 1 && (!cpy || xf r 4 2 == 1))
/-- The registers that MZERO clears (R214). -/
def mzeroLen (r : RWord) : Nat := 8 * 2 ^ xf r 0 2

/-- An M-form row (R41, R148, R170): the SC, ORD, SZ and CP (or AT) values it takes. ORD needs SC except where SC = 0 stands
for block scope, and needs SZ at most 3 in the loads and stores. -/
def mRule (r : MWord) (d a b : Field) (scs ords szs cps : List Nat) (extra : List Nat) : OpRule :=
  { guard := true, d, a, b, c := .zero, ma := .no, mb := .no, mc := .no,
    bad := (if scs.contains r.sc.toNat && ords.contains r.ord.toNat && szs.contains r.sz.toNat && cps.contains r.cp.toNat
      then [] else [5]) ++ extra }
/-- The registers of a data run (R148). -/
def runLen (r : MWord) : Nat := if r.sz.toNat < 3 ∨ r.sz.toNat > 5 then 1 else 2 ^ (r.sz.toNat - 2)
/-- ORD other than 0 needs a scope and SZ at most 3 (R41, R148). -/
def ordBad (r : MWord) : List Nat := seg5 (r.ord != 0 && (r.sc == 0 || r.sz.toNat > 3))
/-- The load mode in B (R148). -/
def loadMode (r : MWord) : List Nat :=
  ordBad r ++ (if r.b.toNat < 2 then [] else [4]) ++ seg5 (r.b.toNat % 2 == 1 && r.sz.toNat > 1)
/-- The fragment mode of LDM and STM (R151). -/
def fragMode (v : BitVec 8) : List Nat := if v.toNat < 8 then [] else [4]
/-- The operation of CCTL (R153). -/
def cctlBad (r : MWord) : List Nat := (if r.b.toNat < 8 then [] else [4]) ++ seg5 (r.b.toNat % 8 > 4)
/-- AT = 3 needs SZ = 2 (R41). -/
def atBad (r : MWord) : List Nat := seg5 (r.cp.toNat == 3 && r.sz.toNat != 2)

/-- The rule of every full word of the R, I and M forms outside the hint space, a retired word included (its malformation
rules, R55); none for the other constructors. -/
def ruleOf (i : Instr) : Option (View × OpRule) :=
  match i with
  | .nop r => some (viewR r, plain r .zero .zero .zero .zero 0 [])
  | .exit r => some (viewR r, plain r .zero .zero .zero .zero 0 [])
  | .bra _ => none
  | .brx r => some (viewR r, xferRule r .zero)
  | .call _ => none
  | .callx r => some (viewR r, xferRule r (.uni 2 2))
  | .ret r => some (viewR r, xferRule r .zero)
  | .ifThen _ => none
  | .elseW _ => none
  | .loopW _ => none
  | .endloop _ => none
  | .breakW _ => none
  | .cont _ => none
  | .sleep r => some (viewI r, iSys r 32 |>.unguarded)
  | .illegalWord _ _ _ _ => none
  | .pairWord _ => none
  | .iadd r => some (viewR r, intRule r [1, 2] true 0 1 (.gen 1 1) (.gen 1 1) .zero (tyMods r) (tyMods r) .no [])
  | .iaddI r => some (viewI r, iRule r (.lane 1 1) (.lane 1 1) [0] [])
  | .iadd3 r => some (viewR r, intRule r [1, 2] true 0 1 (.gen 1 1) (.gen 1 1) (.gen 1 1) (tyMods r) (tyMods r) (tyMods r) [])
  | .isub r => some (viewR r, intRule r [1, 2] true 0 1 (.gen 1 1) (.gen 1 1) .zero (tyMods r) (tyMods r) .no [])
  | .imul r => some (viewR r, intRule r [1, 2] true 0 1 (.gen 1 1) (.gen 1 1) .zero (tyMods r) (tyMods r) .no [])
  | .imulI r => some (viewI r, iRule r (.lane 1 1) (.lane 1 1) [0] [])
  | .imulh r => some (viewR r, intRule r [1, 2] false 0 1 (.gen 1 1) (.gen 1 1) .zero (tyMods r) (tyMods r) .no [])
  | .imad r => some (viewR r, intRule r [1, 2] true 0 1 (.gen 1 1) (.gen 1 1) (.gen 1 1) (tyMods r) (tyMods r) (tyMods r) [])
  | .imadw r => some (viewR r, intRule r [1, 2] true 0 2 (.gen 1 1) (.gen 1 1) (.gen 2 2) (tyMods r) (tyMods r) (tyMods r) [])
  | .idiv r => some (viewR r, intRule r [1, 2] true 0 1 (.gen 1 1) (.gen 1 1) .zero (tyMods r) (tyMods r) .no [])
  | .irem r => some (viewR r, intRule r [1, 2] false 0 1 (.gen 1 1) (.gen 1 1) .zero (tyMods r) (tyMods r) .no [])
  | .imin r => some (viewR r, intRule r [1, 2] false 0 1 (.gen 1 1) (.gen 1 1) .zero (tyMods r) (tyMods r) .no [])
  | .imax r => some (viewR r, intRule r [1, 2] false 0 1 (.gen 1 1) (.gen 1 1) .zero (tyMods r) (tyMods r) .no [])
  | .isad r => some (viewR r, intRule r [1, 2] true 0 1 (.gen 1 1) (.gen 1 1) (.gen 1 1) (tyMods r) (tyMods r) (tyMods r) [])
  | .idot4 r => some (viewR r, intRule r [1] true 6 1 (.gen 1 1) (.gen 1 1) (.gen 1 1) .no .no (tyMods r) [])
  | .idot8 r => some (viewR r, intRule r [1] true 6 1 (.gen 1 1) (.gen 1 1) (.gen 1 1) .no .no (tyMods r) [])
  | .icmp r => some (viewR r, intPredRule r [0, 1, 2] 14 (.gen 1 1) (.gen 1 1) .zero (tyMods r) (tyMods r) .no (ccBad r))
  | .sel r => some (viewR r, intRule r [0] false 0 1 (.gen 1 1) (.gen 1 1) .pred .neg .neg .neg [])
  | .andR r => some (viewR r, intRule r [0] false 0 1 (.gen 1 1) (.gen 1 1) .zero .neg .neg .no [])
  | .andI r => some (viewI r, iRule r (.lane 1 1) (.lane 1 1) [0] [])
  | .orR r => some (viewR r, intRule r [0] false 0 1 (.gen 1 1) (.gen 1 1) .zero .neg .neg .no [])
  | .orI r => some (viewI r, iRule r (.lane 1 1) (.lane 1 1) [0] [])
  | .xorR r => some (viewR r, intRule r [0] false 0 1 (.gen 1 1) (.gen 1 1) .zero .neg .neg .no [])
  | .xorI r => some (viewI r, iRule r (.lane 1 1) (.lane 1 1) [0] [])
  | .lop3 r => some (viewR r, tblRule r (.gen 1 1) (.gen 1 1) (.gen 1 1))
  | .shl r => some (viewR r, intRule r [0] false 0 1 (.gen 1 1) (.gen 1 1) .zero .neg .no .no [])
  | .shr r => some (viewR r, intRule r [0] false 0 1 (.gen 1 1) (.gen 1 1) .zero .neg .no .no [])
  | .sar r => some (viewR r, intRule r [1] false 0 1 (.gen 1 1) (.gen 1 1) .zero (tyMods r) .no .no [])
  | .shf r => some (viewR r, intRule r [0] false 6 1 (.gen 1 1) (.gen 1 1) (.gen 1 1) .neg .neg .no [])
  | .bfe r => some (viewR r, intRule r [1, 2] false 0 1 (.gen 1 1) (.gen 1 1) .zero (tyMods r) .no .no [])
  | .bfi r => some (viewR r, intRule r [0] false 0 1 (.gen 1 1) (.gen 1 1) (.gen 1 1) .neg .no .neg [])
  | .brev r => some (viewR r, intRule r [0] false 0 1 (.gen 1 1) .zero .zero .neg .no .no [])
  | .clz r => some (viewR r, intRule r [0] false 0 1 (.gen 1 1) .zero .zero .neg .no .no [])
  | .popc r => some (viewR r, intRule r [0] false 0 1 (.gen 1 1) .zero .zero .neg .no .no [])
  | .ffs r => some (viewR r, intRule r [0] false 2 1 (.gen 1 1) .zero .zero .neg .no .no [])
  | .prmt r => some (viewR r, intRule r [0] false 0 1 (.gen 1 1) (.gen 1 1) (.gen 1 1) .neg .neg .no [])
  | .mov r => some (viewR r, (let n := if xbit r 1 then 2 else 1; intRule r [0] false 2 n (.gen n n) .zero .zero .no .no .no []))
  | .movi r => some (viewI r, (let n := if r.im = 1 then 2 else 1; iRule r (.lane n n) .zero [0, 1, 2] []))
  | .movis r => some (viewI r, (let n := if r.im = 1 then 2 else 1; iRule r (.uni n n) .zero [0, 1, 2] []))
  | .lea r => some (viewR r, intRule r [1, 2] false 14 2 (.gen 2 2) (.gen 1 1) .zero .no .no .no [])
  | .add64 r => some (viewR r, intRule r [1, 2] true 0 2 (.gen 2 2) (.gen 2 2) .zero (tyMods r) (tyMods r) .no [])
  | .add64I r => some (viewI r, iRule r (.lane 2 2) (.lane 2 2) [0, 1] [])
  | .sub64 r => some (viewR r, intRule r [1, 2] true 0 2 (.gen 2 2) (.gen 2 2) .zero (tyMods r) (tyMods r) .no [])
  | .mul64 r => some (viewR r, intRule r [1, 2] false 0 2 (.gen 2 2) (.gen 2 2) .zero (tyMods r) (tyMods r) .no [])
  | .cmp64 r => some (viewR r, intPredRule r [0, 1, 2] 14 (.gen 2 2) (.gen 2 2) .zero (tyMods r) (tyMods r) .no (ccBad r))
  | .movs r => some (viewR r, movsRule r)
  | .movrx r => some (viewR r, noUd r (intRule r [0] false 0 1 .lit (.gen 1 1) .zero .no .no .no []))
  | .movwx r => some (viewR r, noUd r (intRule r [0] false 0 1 (.gen 1 1) (.gen 1 1) .zero .no .no .no []) |>.withD .lit)
  | .shfl r => some (viewR r, noUd r (intRule r [0] false 62 1 (.gen 1 1) (.gen 1 1) (.gen 1 1) .neg .no .no (seg5 (xf r 3 3 > 4))))
  | .vote r => some (viewR r, voteRule r)
  | .redux r => some (viewR r, reduxRule r)
  | .matchL r => some (viewR r, (let n := if xbit r 2 then 2 else 1; noUd r (intRule r [0] false 6 1 (.gen n n) .zero .zero .neg .no .no [])))
  | .pset r => some (viewR r, psetRule r)
  | .p2v r => some (viewR r, noUd r (intRule r [0] false 0 1 .zero .zero .zero .no .no .no []))
  | .v2p r => some (viewR r, noUd r (intRule r [0] false 0 1 (.gen 1 1) .zero .zero .neg .no .no []) |>.withD .zero)
  | .fadd r => some (viewR r, fpRule r true true 1 (.gen 1 1) (.gen 1 1) .zero .both .both .no)
  | .faddI r => some (viewI r, iRule r (.lane 1 1) (.lane 1 1) [0, 2] (fpImmBad r))
  | .fmul r => some (viewR r, fpRule r true true 1 (.gen 1 1) (.gen 1 1) .zero .both .both .no)
  | .fmulI r => some (viewI r, iRule r (.lane 1 1) (.lane 1 1) [0, 2] (fpImmBad r))
  | .ffma r => some (viewR r, fpRule r true true 1 (.gen 1 1) (.gen 1 1) (.gen 1 1) .both .both .both)
  | .fmin r => some (viewR r, fpRule r false false 1 (.gen 1 1) (.gen 1 1) .zero .both .both .no)
  | .fmax r => some (viewR r, fpRule r false false 1 (.gen 1 1) (.gen 1 1) .zero .both .both .no)
  | .fcmp r => some (viewR r, fcmpRule r 1)
  | .frcp r => some (viewR r, fpRule r true true 1 (.gen 1 1) .zero .zero .both .no .no)
  | .frsq r => some (viewR r, fpRule r true true 1 (.gen 1 1) .zero .zero .both .no .no)
  | .fsqrt r => some (viewR r, fpRule r true true 1 (.gen 1 1) .zero .zero .both .no .no)
  | .fdiv r => some (viewR r, fpRule r true true 1 (.gen 1 1) (.gen 1 1) .zero .both .both .no)
  | .fex2 r => some (viewR r, fpRule r false true 1 (.gen 1 1) .zero .zero .both .no .no)
  | .flg2 r => some (viewR r, fpRule r false true 1 (.gen 1 1) .zero .zero .both .no .no)
  | .fsin r => some (viewR r, fpRule r false true 1 (.gen 1 1) .zero .zero .both .no .no)
  | .fcos r => some (viewR r, fpRule r false true 1 (.gen 1 1) .zero .zero .both .no .no)
  | .ftanh r => some (viewR r, fpRule r false true 1 (.gen 1 1) .zero .zero .both .no .no)
  | .fclass r => some (viewR r, fclassRule r)
  | .frnd r => some (viewR r, fpRule r true false 1 (.gen 1 1) .zero .zero .both .no .no)
  | .dadd r => some (viewR r, fpRule r true true 2 (.gen 2 2) (.gen 2 2) .zero .both .both .no)
  | .dmul r => some (viewR r, fpRule r true true 2 (.gen 2 2) (.gen 2 2) .zero .both .both .no)
  | .dfma r => some (viewR r, fpRule r true true 2 (.gen 2 2) (.gen 2 2) (.gen 2 2) .both .both .both)
  | .dmin r => some (viewR r, fpRule r false false 2 (.gen 2 2) (.gen 2 2) .zero .both .both .no)
  | .dmax r => some (viewR r, fpRule r false false 2 (.gen 2 2) (.gen 2 2) .zero .both .both .no)
  | .dcmp r => some (viewR r, fcmpRule r 2)
  | .ddiv r => some (viewR r, fpRule r true true 2 (.gen 2 2) (.gen 2 2) .zero .both .both .no)
  | .dsqrt r => some (viewR r, fpRule r true true 2 (.gen 2 2) .zero .zero .both .no .no)
  | .padd2F16 r => some (viewR r, packRule r true true .zero .no [])
  | .pmul2F16 r => some (viewR r, packRule r true true .zero .no [])
  | .pfma2F16 r => some (viewR r, packRule r true true (.gen 1 1) .both [])
  | .pmin2F16 r => some (viewR r, packRule r false false .zero .no [])
  | .pmax2F16 r => some (viewR r, packRule r false false .zero .no [])
  | .pcmp2F16 r => some (viewR r, packRule r false false .lit .no (condBad r))
  | .padd2Bf16 r => some (viewR r, packRule r true true .zero .no [])
  | .pmul2Bf16 r => some (viewR r, packRule r true true .zero .no [])
  | .pfma2Bf16 r => some (viewR r, packRule r true true (.gen 1 1) .both [])
  | .pmin2Bf16 r => some (viewR r, packRule r false false .zero .no [])
  | .pmax2Bf16 r => some (viewR r, packRule r false false .zero .no [])
  | .pcmp2Bf16 r => some (viewR r, packRule r false false .lit .no (condBad r))
  | .cvt r => some (viewR r, cvtRule r)
  | .cvtp r => some (viewR r, cvtpRule r)
  | .fsetm r => some (viewR r, fsetmRule r)
  | .clrf r => some (viewR r, clrfRule r)
  | .ld r => some (viewM r, mRule r (.lane (runLen r) (runLen r)) (.gen 2 2) .lit [0, 1, 2, 3] [0, 1] [0, 1, 2, 3, 4, 5] [0, 1, 2, 3] (loadMode r))
  | .st r => some (viewM r, mRule r .zero (.gen 2 2) (.lane (runLen r) (runLen r)) [0, 1, 2, 3] [0, 2] [0, 1, 2, 3, 4, 5] [0, 1, 2, 3] (ordBad r))
  | .ldro r => some (viewM r, mRule r (.lane (runLen r) (runLen r)) (.gen 2 2) .lit [0] [0] [0, 1, 2, 3, 4, 5] [0, 1] (loadMode r))
  | .roinv r => some (viewR r, plain r .zero .zero .zero .zero 0 [])
  | .lds r => some (viewM r, mRule r (.lane (runLen r) (runLen r)) (.gen 1 2) .lit [0, 1] [0, 1] [0, 1, 2, 3, 4, 5] [0] (loadMode r))
  | .sts r => some (viewM r, mRule r .zero (.gen 1 2) (.lane (runLen r) (runLen r)) [0, 1] [0, 2] [0, 1, 2, 3, 4, 5] [0] (ordBad r))
  | .stmap r => some (viewR r, plain r (.uni 1 1) (.uniU 1 1) (.uniU 2 2) (.uniU 1 1) 2 [])
  | .stunmap r => some (viewR r, plain r (.uni 1 1) (.uniU 1 1) .zero (.uniU 1 1) 0 [])
  | .ldm r => some (viewM r, mRule r (.lane (runLen r) (runLen r)) (.gen 1 2) .lit [0] [0] [4, 5] [0] (fragMode r.b))
  | .stm r => some (viewM r, mRule r .lit (.gen 1 2) (.lane (runLen r) (runLen r)) [0] [0] [4, 5] [0] (fragMode r.d))
  | .pref r => some (viewM r, mRule r .zero (.gen 2 2) .zero [0] [0] [0] [0, 1, 2, 3] [])
  | .cctlWb r => some (viewM r, mRule r .zero (.gen 2 2) .lit [0] [0] [0] [0] (cctlBad r))
  | .cctlInv r => some (viewM r, mRule r .zero (.gen 2 2) .lit [0] [0] [0] [0] (cctlBad r))
  | .cctlWbinv r => some (viewM r, mRule r .zero (.gen 2 2) .lit [0] [0] [0] [0] (cctlBad r))
  | .cctlSyswb r => some (viewM r, mRule r .zero (.gen 2 2) .lit [0] [0] [0] [0] (cctlBad r))
  | .cctlSysinv r => some (viewM r, mRule r .zero (.gen 2 2) .lit [0] [0] [0] [0] (cctlBad r))
  | .fence r => some (viewR r, plain r .zero .zero .zero .zero 15 (fenceBad r))
  | .probe r => some (viewM r, mRule r (.lane 1 1) (.gen 2 2) .zero [0] [0] [0] [0] [])
  | .atomAdd r => some (viewM r, mRule r (.lane (runLen r) (runLen r)) (.gen 2 2) (.lane (runLen r) (runLen r)) [1, 2, 3] [0, 1, 2, 3] [2, 3] [0, 1, 2, 3] (atBad r))
  | .atomMin r => some (viewM r, mRule r (.lane (runLen r) (runLen r)) (.gen 2 2) (.lane (runLen r) (runLen r)) [1, 2, 3] [0, 1, 2, 3] [2, 3] [0, 1, 2, 3] (atBad r))
  | .atomMax r => some (viewM r, mRule r (.lane (runLen r) (runLen r)) (.gen 2 2) (.lane (runLen r) (runLen r)) [1, 2, 3] [0, 1, 2, 3] [2, 3] [0, 1, 2, 3] (atBad r))
  | .atomAnd r => some (viewM r, mRule r (.lane (runLen r) (runLen r)) (.gen 2 2) (.lane (runLen r) (runLen r)) [1, 2, 3] [0, 1, 2, 3] [2, 3] [0] (atBad r))
  | .atomOr r => some (viewM r, mRule r (.lane (runLen r) (runLen r)) (.gen 2 2) (.lane (runLen r) (runLen r)) [1, 2, 3] [0, 1, 2, 3] [2, 3] [0] (atBad r))
  | .atomXor r => some (viewM r, mRule r (.lane (runLen r) (runLen r)) (.gen 2 2) (.lane (runLen r) (runLen r)) [1, 2, 3] [0, 1, 2, 3] [2, 3] [0] (atBad r))
  | .atomExch r => some (viewM r, mRule r (.lane (runLen r) (runLen r)) (.gen 2 2) (.lane (runLen r) (runLen r)) [1, 2, 3] [0, 1, 2, 3] [2, 3, 4] [0] (atBad r))
  | .cas r => some (viewM r, mRule r (.lane (runLen r) (runLen r)) (.gen 2 2) (.lane (2 * runLen r) (2 * runLen r)) [1, 2, 3] [0, 1, 2, 3] [2, 3, 4] [0] [])
  | .redAdd r => some (viewM r, mRule r .zero (.gen 2 2) (.lane (runLen r) (runLen r)) [1, 2, 3] [0, 2] [2, 3] [0, 1, 2, 3] (atBad r))
  | .redMin r => some (viewM r, mRule r .zero (.gen 2 2) (.lane (runLen r) (runLen r)) [1, 2, 3] [0, 2] [2, 3] [0, 1, 2, 3] (atBad r))
  | .redMax r => some (viewM r, mRule r .zero (.gen 2 2) (.lane (runLen r) (runLen r)) [1, 2, 3] [0, 2] [2, 3] [0, 1, 2, 3] (atBad r))
  | .redAnd r => some (viewM r, mRule r .zero (.gen 2 2) (.lane (runLen r) (runLen r)) [1, 2, 3] [0, 2] [2, 3] [0] (atBad r))
  | .redOr r => some (viewM r, mRule r .zero (.gen 2 2) (.lane (runLen r) (runLen r)) [1, 2, 3] [0, 2] [2, 3] [0] (atBad r))
  | .redXor r => some (viewM r, mRule r .zero (.gen 2 2) (.lane (runLen r) (runLen r)) [1, 2, 3] [0, 2] [2, 3] [0] (atBad r))
  | .atomsAdd r => some (viewM r, mRule r (.lane (runLen r) (runLen r)) (.gen 1 2) (.lane (runLen r) (runLen r)) [0, 1] [0, 1, 2, 3] [2, 3] [0, 1, 2, 3] (atBad r))
  | .atomsMin r => some (viewM r, mRule r (.lane (runLen r) (runLen r)) (.gen 1 2) (.lane (runLen r) (runLen r)) [0, 1] [0, 1, 2, 3] [2, 3] [0, 1, 2, 3] (atBad r))
  | .atomsMax r => some (viewM r, mRule r (.lane (runLen r) (runLen r)) (.gen 1 2) (.lane (runLen r) (runLen r)) [0, 1] [0, 1, 2, 3] [2, 3] [0, 1, 2, 3] (atBad r))
  | .atomsAnd r => some (viewM r, mRule r (.lane (runLen r) (runLen r)) (.gen 1 2) (.lane (runLen r) (runLen r)) [0, 1] [0, 1, 2, 3] [2, 3] [0] (atBad r))
  | .atomsOr r => some (viewM r, mRule r (.lane (runLen r) (runLen r)) (.gen 1 2) (.lane (runLen r) (runLen r)) [0, 1] [0, 1, 2, 3] [2, 3] [0] (atBad r))
  | .atomsXor r => some (viewM r, mRule r (.lane (runLen r) (runLen r)) (.gen 1 2) (.lane (runLen r) (runLen r)) [0, 1] [0, 1, 2, 3] [2, 3] [0] (atBad r))
  | .atomsExch r => some (viewM r, mRule r (.lane (runLen r) (runLen r)) (.gen 1 2) (.lane (runLen r) (runLen r)) [0, 1] [0, 1, 2, 3] [2, 3, 4] [0] (atBad r))
  | .cass r => some (viewM r, mRule r (.lane (runLen r) (runLen r)) (.gen 1 2) (.lane (2 * runLen r) (2 * runLen r)) [0, 1] [0, 1, 2, 3] [2, 3, 4] [0] [])
  | .bar r => some (viewR r, (let cnt := xbit r 5; plain r .zero (if cnt then .uniU 1 1 else .zero) .zero .zero 0x3E [] |>.unguarded))
  | .tbinit r => some (viewR r, tbRule r false .zero (.uniU 1 1) .zero)
  | .tbarr r => some (viewR r, tbRule r true .zero .zero (if xbit r 8 then .uniU 1 1 else .zero))
  | .tbexp r => some (viewR r, tbRule r false .zero .zero (.uniU 1 1))
  | .tbwait r => some (viewR r, tbRule r false .zero .zero (.uniU 1 1))
  | .tbtest r => some (viewR r, tbRule r false .pred .zero (.uniU 1 1))
  | .tbinv r => some (viewR r, tbRule r false .zero .zero .zero)
  | .cpy r => some (viewR r, plain r (.uni 2 2) (.uniU 2 2) (.uniU 1 1) (if xbit r 8 then .uniU 1 1 else .zero) 508 (spBad r true))
  | .cpyt r => some (viewR r, plain r (.uni 1 1) (.uniU 16 16) (.uniU 8 8) (if xbit r 8 then .uniU 1 1 else .zero) 396 [])
  | .cpyf r => some (viewR r, plain r (.uni 2 2) (.uniU 2 2) (.uniU 1 1) (if xbit r 8 then .uniU 1 1 else .zero) 508 (spBad r false))
  | .gath r => some (viewR r, plain r .zero (.uniU 8 8) .zero (if xbit r 8 then .uniU 1 1 else .zero) 268 [])
  | .scat r => some (viewR r, plain r .zero (.uniU 8 8) .zero (if xbit r 8 then .uniU 1 1 else .zero) 460 (seg5 (xf r 6 2 = 3)))
  | .waitc r => some (viewR r, plain r .zero (if xbit r 7 then .uniU 1 1 else .zero) (if xbit r 7 then .zero else .lit) .zero 384 [])
  | .cpyq r => some (viewR r, plain r (.uni 4 4) (.uniU 1 1) .zero .zero 256 [])
  | .cpyx r => some (viewR r, plain r (.uni 1 1) .zero .zero .zero 384 (seg5 (xf r 7 2 = 0)))
  | .mma r => some (viewR r, plain r (.lane 32 8) (.lane 8 8) (.lane 8 8) .zero 480 [])
  | .mmaq r => some (viewR r, plain r (.lane 64 8) (.lane 8 8) (.lane 4 4) .zero 448 [] |>.unguarded)
  | .mmaqs r => some (viewR r, plain r (.lane 64 8) (.lane 16 8) (.lane 8 8) (.lane 8 8) 448 [] |>.unguarded)
  | .mzero r => some (viewR r, plain r (.lane (mzeroLen r) 8) .zero .zero .zero 3 [])
  | .mcvt r => some (viewR r, plain r (.lane 1 1) (.lane (if xbit r 3 then 64 else 32) 8) .zero .zero 504 [])
  | .fslot r => some (viewR r, plain r (.uni 2 2) .zero .zero .zero 448 [])
  | .launch r => some (viewR r, plain r (.uni 4 4) (.uniU 2 2) .zero .zero 0 [])
  | .cwait r => some (viewR r, plain r (.uni 1 1) (if xbit r 1 then .uniU 2 2 else .zero) .zero .zero 2 [] |>.unguarded)
  | .regacq r => some (viewR r, plain r .zero .zero .zero .zero 126 (seg5 (xf r 1 6 > 32)) |>.unguarded)
  | .regrel r => some (viewR r, plain r .zero .zero .zero .zero 126 (seg5 (xf r 1 6 > 32)) |>.unguarded)
  | .treg r => some (viewR r, plain r (.uni 1 1) (.uniU 1 1) (.uniU 1 1) .zero 0 [])
  | .tfree r => some (viewR r, plain r (.uni 2 2) (.uniU 1 1) .zero .zero 0 [])
  | .tsend r => some (viewR r, plain r (.uni 1 1) (.uniU 1 1) (.uniU 2 2) (.uniU 1 1) 7 [])
  | .twait r => some (viewR r, plain r (.uni 4 4) (.uniU 2 2) .zero .zero 0 [])
  | .tpoll r => some (viewR r, plain r (.uni 4 4) (.uniU 2 2) .zero .zero 0 [])
  | .tmask r => some (viewR r, plain r (.uni 2 2) (.uniU 2 2) (.uniU 2 2) .zero 0 [])
  | .tpermAdd r => some (viewR r, plain r (.uni 1 1) (.uniU 1 1) (.uniU 1 1) (.uniU 1 1) 0 [])
  | .tpermRemove r => some (viewR r, plain r (.uni 1 1) (.uniU 1 1) (.uniU 1 1) (.uniU 1 1) 0 [])
  | .tpermClear r => some (viewR r, plain r (.uni 1 1) (.uniU 1 1) (.uniU 1 1) (.uniU 1 1) 0 [])
  | .tret r => some (viewR r, plain r .zero .zero .zero .zero 0 [])
  | .syscall r => some (viewI r, iSys r 12)
  | .syscallb r => some (viewI r, iSys r 12 |>.unguarded)
  | .trapW r => some (viewI r, iSys r 24)
  | .bkpt r => some (viewI r, iSys r 16)
  | .sret r => some (viewR r, plain r .zero .zero .zero .zero 0 [])
  | .mqpop r => some (viewR r, plain r (.uni 8 8) .zero .zero .zero 0 [])
  | .mqrplRetry r => some (viewR r, plain r (.uni 1 1) (.uniU 1 1) (.uniU 1 1) .zero 0 [])
  | .mqrplNext r => some (viewR r, plain r (.uni 1 1) (.uniU 1 1) (.uniU 1 1) .zero 0 [])
  | .mqrplPark r => some (viewR r, plain r (.uni 1 1) (.uniU 1 1) (.uniU 1 1) .zero 0 [])
  | .mqrplResume r => some (viewR r, plain r (.uni 1 1) (.uniU 1 1) (.uniU 1 1) .zero 0 [])
  | .mqrplFail r => some (viewR r, plain r (.uni 1 1) (.uniU 1 1) (.uniU 1 1) .zero 0 [])
  | .mqrplAck r => some (viewR r, plain r (.uni 1 1) (.uniU 1 1) (.uniU 1 1) .zero 0 [])
  | .vsrd r => some (viewR r, plain r (.uni 2 2) (.uniU 1 1) (.uniU 1 1) .zero 0 [])
  | .vswr r => some (viewR r, plain r (.uni 1 1) (.uniU 1 1) (.uniU 1 1) (.uniU 1 1) 0 [])
  | .csrrd r => some (viewI r, (iSys r 12).withD (.lane 1 1) |>.also (csrBad r false))
  | .csrwr r => some (viewI r, (iSys r 12).withA (.lane 1 1) |>.also (csrBad r true))
  | .wdpet r => some (viewI r, (iSys r 12).withA (.lane 1 1) |>.also (csrBad r true))
  | .swapoutReturn r => some (viewR r, plain r (.uni 1 1) (.uniU 1 1) (.uniU 1 1) .zero 0 [])
  | .swapoutStop r => some (viewR r, plain r (.uni 1 1) (.uniU 1 1) (.uniU 1 1) .zero 0 [])
  | .swapoutDiscard r => some (viewR r, plain r (.uni 1 1) (.uniU 1 1) (.uniU 1 1) .zero 0 [])
  | .swapin r => some (viewR r, plain r (.uni 1 1) (.uniU 1 1) .zero .zero 0 [])
  | .hqput r => some (viewR r, plain r (.uni 1 1) (.uniU 2 2) .zero .zero 0 [])
  | .sigpostUser r => some (viewR r, plain r (.uni 1 1) (.uniU 1 1) (.uniU 1 1) .zero 0 [])
  | .sigpostStop r => some (viewR r, plain r (.uni 1 1) (.uniU 1 1) (.uniU 1 1) .zero 0 [])
  | .sigpostCont r => some (viewR r, plain r (.uni 1 1) (.uniU 1 1) (.uniU 1 1) .zero 0 [])
  | .sigpostKill r => some (viewR r, plain r (.uni 1 1) (.uniU 1 1) (.uniU 1 1) .zero 0 [])
  | .halt r => some (viewR r, plain r .zero .zero .zero .zero 0 [])
  | .preempt r => some (viewR r, plain r (.uni 2 2) (.uniU 1 1) (.uniU 1 1) .zero 0 [])
  | .ptinvRange r => some (viewR r, plain r (.uni 1 1) (.uniU 1 1) (.uniU 2 2) (.uniU 1 1) 0 [])
  | .ptinvAsid r => some (viewR r, plain r (.uni 1 1) (.uniU 1 1) (.uniU 2 2) (.uniU 1 1) 0 [])
  | .ptinvPartition r => some (viewR r, plain r (.uni 1 1) (.uniU 1 1) (.uniU 2 2) (.uniU 1 1) 0 [])
  | .tcinv r => some (viewR r, plain r (.uni 1 1) (.uniU 2 2) (.uniU 1 1) .zero 0 [])
  | .tcpin r => some (viewR r, plain r (.uni 1 1) (.uniU 2 2) (.uniU 1 1) (.uniU 1 1) 0 [])
  | .tcpinUnpin r => some (viewR r, plain r (.uni 1 1) (.uniU 2 2) (.uniU 1 1) (.uniU 1 1) 0 [])
  | .fdiva r => some (viewR r, plain r (.lane 1 1) (.lane 1 1) (.lane 1 1) .zero 0 [])
  | .imad24 r => some (viewR r, plain r (.lane 1 1) (.lane 1 1) (.lane 1 1) (.lane 1 1) 0 [])
  | .hsel2Ll r => some (viewR r, plain r (.lane 1 1) (.lane 1 1) (.lane 1 1) .zero 0 [])
  | .hsel2Lh r => some (viewR r, plain r (.lane 1 1) (.lane 1 1) (.lane 1 1) .zero 0 [])
  | .hsel2Hl r => some (viewR r, plain r (.lane 1 1) (.lane 1 1) (.lane 1 1) .zero 0 [])
  | .hsel2Hh r => some (viewR r, plain r (.lane 1 1) (.lane 1 1) (.lane 1 1) .zero 0 [])
  | .ldnc r => some (viewM r, mRule r (.lane (runLen r) (runLen r)) (.gen 2 2) .lit [0, 1, 2, 3] [0, 1] [0, 1, 2, 3, 4, 5] [0, 1, 2, 3] (loadMode r))
  | .cvth4 r => some (viewR r, plain r (.lane 2 2) (.lane 1 1) .zero .zero 0 [])
  | .votex r => some (viewR r, plain r (.lane 1 1) .pred .zero .zero 0 [])
  | .hpri _ => none
  | .hlive _ => none
  | .hqlen _ => none
  | .hloc _ => none
  | .hintUnimplemented _ _ => none
  | .trace r => some (viewR r, plain r .zero (.uniU 2 2) .zero .zero 511 [])
  | .mark r => some (viewI r, iSys r 24)
  | .wpset r => some (viewR r, plain r (.uni 1 1) (.uniU 2 2) (.uniU 1 1) (.uniU 2 2) 0 [])
  | .wpsetBp r => some (viewR r, plain r (.uni 1 1) (.uniU 2 2) (.uniU 1 1) (.uniU 2 2) 0 [])
  | .wpclr r => some (viewR r, plain r (.uni 1 1) (.uniU 1 1) .zero .zero 0 [])
  | .wpclrBp r => some (viewR r, plain r (.uni 1 1) (.uniU 1 1) .zero .zero 0 [])
  | .perfrd r => some (viewR r, plain r (.uni 2 2) (.uniU 1 1) .zero .zero 0 [])
  | .preemptRelease r => some (viewR r, plain r (.uni 2 2) (.uniU 1 1) (.uniU 1 1) .zero 0 [])
  | .endif => none
  | .yield => none
  | .gangbar => none
  | .resolveAfterTret _ => none
  | .stopSecondary _ => none
  | .sleepWake _ _ => none
  | .engineSlotGrant _ _ => none
  | .engineBytesDone _ _ _ => none
  | .engineOpComplete _ _ => none
  | .engineAccessFault _ _ => none
  | .engineOpFail _ _ _ => none
  | .quadForm _ _ => none
  | .regacqGrant _ => none
  | .registerStall _ => none
  | .coreWorkRequest _ => none
  | .gangEnlistTimeout _ _ => none
  | .displaceWaitingParent _ => none
  | .displaceHigherBlock _ _ => none
  | .blockRetire _ => none
  | .gridRetire _ _ => none
  | .tetherEntry _ => none
  | .hostDoorbellStore _ _ _ _ => none
  | .mooringEntryTake _ => none
  | .hostReply _ _ _ _ => none
  | .callGetid _ _ => none
  | .callDmap _ _ _ => none
  | .callDunmap _ _ => none
  | .callSigmask _ _ => none
  | .callForwarded _ _ => none
  | .permissionCacheFill _ _ _ => none
  | .loadPerformed _ _ _ _ => none
  | .l1Eviction _ _ _ => none
  | .postedWriteFail _ _ => none
  | .linkResponseTimeout _ => none
  | .hostSnoop _ _ => none
  | .hostHdmAccess _ _ _ _ _ => none
  | .ualinkInboundAccess _ => none
  | .ualinkTetherRequest _ _ _ _ _ _ => none
  | .ualinkPortFail _ => none
  | .keptResponseExpire _ _ => none
  | .translationMiss _ _ _ => none
  | .traceDrain _ => none
  | .coreUncorrectableError _ _ => none
  | .sqtailWrite _ _ _ => none
  | .submitLaunch _ _ _ => none
  | .submitLoad _ _ _ _ _ => none
  | .submitInval _ _ _ _ => none
  | .submitReclaim _ _ _ => none
  | .submitBinddb _ _ _ _ => none
  | .submitWindow _ _ _ _ _ => none
  | .hostBlockWrite _ _ _ => none
  | .peerWindowWrite _ _ _ _ _ => none
  | .peerWindowRead _ _ _ _ => none
  | .peerDoorbellWrite _ _ _ => none
  | .peerUnsupportedRequest _ => none
  | .hostPortDown => none
  | .graceExpire _ => none
  | .coldReset _ => none
  | .watchdogExpire _ => none
  | .partitionResetRequest _ => none
  | .debugStopArm _ _ => none
  | .debugStop _ => none
  | .spdmCert => none
  | .spdmChal _ => none
  | .spdmMeas => none
  | .extend _ _ => none
  | .lastEventsRead => none
  | .powerCap _ => none
  | .governorTick _ => none
  | .railCurrentThrottle _ _ => none
  | .thermalLimit _ _ => none
  | .postedWriteAck _ => none
  | .tetherApertureResponse _ _ => none
  | .hostPortUp _ _ => none
  | .ualinkPortRetrain _ => none
  | .memoryPoisonFound _ => none
  | .permissionCacheEviction _ _ => none
  | .createContext _ => none

/-- A branch word's guard (R32). -/
def bGuard (r : BWord) : List Nat := if r.pg = 7 ∧ !r.pn then [] else [7]
/-- A branch word whose offset must be 1 or more (R75). -/
def fwd (r : BWord) : List Nat := seg5 (r.tgt.toInt < 1)
/-- The predicate field P of IF, BREAK and CONT (R75). -/
def bPred (r : BWord) : List Nat := if bitsOf r.bop.toNat 18 8 < 8 then [] else [6]
/-- ELSE, LOOP (R75). -/
def elseBad (r : BWord) : List Nat := bGuard r ++ fwd r ++ (if r.bop = 0 then [] else [4])
/-- BREAK, CONT (R75). -/
def breakBad (r : BWord) : List Nat := bGuard r ++ fwd r ++ bPred r ++ (if bitsOf r.bop.toNat 0 17 = 0 then [] else [4])
/-- IF (R75): the offset lies between 1 and END17. -/
def ifBad (r : BWord) : List Nat :=
  bGuard r ++ bPred r ++ seg5 (r.tgt.toInt < 1 || r.tgt.toInt > (bitsOf r.bop.toNat 0 17 : Nat))
/-- ENDLOOP (R75): the offset is 0 or less. -/
def endloopBad (r : BWord) : List Nat := bGuard r ++ seg5 (r.tgt.toInt > 0) ++ (if r.bop = 0 then [] else [4])
/-- BRA (R86). -/
def braBad (r : BWord) : List Nat :=
  let cnd := bitsOf r.bop.toNat 23 3
  let cr := bitsOf r.bop.toNat 15 8
  bGuard r ++ (if bitsOf r.bop.toNat 0 15 = 0 then [] else [4]) ++ seg5 (cnd > 5) ++
    (if cnd = 0 then (if cr = 0 then [] else [4]) else if cnd ≤ 2 then (if cr < 64 then [] else [6])
     else if cnd ≤ 5 then (if cr < 8 then [] else [6]) else [])
/-- CALL (R86). -/
def callBad (r : BWord) : List Nat :=
  let lk := bitsOf r.bop.toNat 18 8
  bGuard r ++ (if lk < 64 ∧ lk % 2 = 0 then [] else [6]) ++ (if bitsOf r.bop.toNat 0 18 = 0 then [] else [4])

/-- What a pair opcode takes (R47): which of NA and AA. -/
def pairMods (op : PairOp) : Mods :=
  match op with
  | .mov | .shl | .shr | .sar => .no
  | .iminN | .imaxN | .and | .or | .xor | .iaddSatN => .neg
  | _ => .both
/-- Whether the half is in the immediate form (R44). -/
def Half.isImm (h : Half) : Bool := h.m9.getLsbD 8
/-- The reasons that one half breaks (R46 items 5 to 7). -/
def halfBad (h : Half) : List Nat :=
  if h.isImm then
    match h.op with
    | .shl | .shr | .sar => seg5 (h.m9.toNat % 256 > 31)
    | _ => []
  else modBad (pairMods h.op) (h.m9.getLsbD 7) (h.m9.getLsbD 6) ++ (if h.m9.toNat % 64 = 0 then [] else [4])
/-- The registers that a half reads (R44). -/
def Half.reads (h : Half) : List Nat :=
  match h.op, h.isImm with
  | .mov, true => []
  | .mov, false => [h.a.toNat]
  | _, true => [h.a.toNat]
  | _, false => [h.d.toNat, h.a.toNat]
/-- Reason 3 (R46 items 3 and 4): one bank for both destinations, or more than two registers read from one bank. -/
def bankBad (p : PairWord) : List Nat :=
  let rs := (p.h0.reads ++ p.h1.reads).eraseDups
  if p.h0.d.toNat % 4 = p.h1.d.toNat % 4 ∨ [0, 1, 2, 3].any (fun k => (rs.filter (fun r => r % 4 == k)).length > 2)
    then [3] else []
/-- Every reason that a pair word breaks (R46). -/
def pairBad (p : PairWord) : List Nat := bankBad p ++ halfBad p.h0 ++ halfBad p.h1

/-- Whether the instruction is a retired word, whose fields the emulation checks and the decoder does not (R55). -/
def isRetired (i : Instr) : Bool :=
  match i with
  | .fdiva _ | .imad24 _ | .hsel2Ll _ | .hsel2Lh _ | .hsel2Hl _ | .hsel2Hh _ | .ldnc _ | .cvth4 _ | .votex _ => true
  | _ => false
/-- Every reason of R59 that the word's fields break under the rules of its row. -/
def fieldsBad (i : Instr) : List Nat :=
  match i with
  | .bra r => braBad r
  | .call r => callBad r
  | .ifThen r => ifBad r
  | .elseW r | .loopW r => elseBad r
  | .endloop r => endloopBad r
  | .breakW r | .cont r => breakBad r
  | .pairWord p => pairBad p
  | _ => match ruleOf i with
    | some (v, k) => ruleBad v k
    | none => []
/-- Every reason for which the decoder refuses the word (R57 step 4): none for a hint (R52), a retired word (R55) or an
event. -/
def decodeBad (i : Instr) : List Nat := if isRetired i then [] else fieldsBad i

/-- The lowest of a list of reasons, the one that R59 reports. -/
def minReason (l : List Nat) : Option Nat := l.foldl (fun o x => match o with | none => some x | some y => some (min x y)) none

end Sys2Proof
end

