-- ==== Sys2Proof/WellFormed.lean ====
section
/-! DEFINITION. Which instructions are well formed: those whose fields break no rule of R59, whose literal operand is the one
its row is told apart by, and the hint codes that no other row has. -/
namespace Sys2Proof

/-- The check of one instruction, as a list of broken reasons: the reasons of R59, with 1 for a constructor whose code or
literal belongs to another row. -/
def wfBad (i : Instr) : List Nat :=
  fieldsBad i ++
  match i with
  | .cctlWb r => if r.b = 0 then [] else [1]
  | .cctlInv r => if r.b = 1 then [] else [1]
  | .cctlWbinv r => if r.b = 2 then [] else [1]
  | .cctlSyswb r => if r.b = 3 then [] else [1]
  | .cctlSysinv r => if r.b = 4 then [] else [1]
  | .csrwr r => if r.imm.toNat = 0x27 then [1] else []
  | .wdpet r => if r.imm.toNat = 0x27 then [] else [1]
  | .hintUnimplemented code _ => if code.toNat < 4 then [1] else []
  | .illegalWord _ reason _ _ => if 1 ≤ reason ∧ reason ≤ 9 then [1] else [1, 5]
  | _ => []

/-- A well-formed instruction (R59): no rule of its row is broken. An ILLEGAL_WORD is a word, and no well-formed one. -/
abbrev WellFormed (i : Instr) : Prop := wfBad i = []

end Sys2Proof
end

