-- ==== Sys2Proof/Decode.lean ====
section
/-! DEFINITION. The decoder of a 64-bit word (R26 to R49, R56 to R59), total on any word, and the encoder written from the
same tables. A word that is no instruction decodes to ILLEGAL_WORD with the reason of R59 and the halves it marks. -/
namespace Sys2Proof

/-- The fields of a word in the R form (R33). -/
def wordR (w : DWord) : RWord :=
  { pg := w.extractLsb' 51 3, pn := w.getLsbD 50, d := w.extractLsb' 42 8, a := w.extractLsb' 34 8, b := w.extractLsb' 26 8,
    c := w.extractLsb' 18 8, ua := w.getLsbD 17, ub := w.getLsbD 16, uc := w.getLsbD 15, na := w.getLsbD 14,
    aa := w.getLsbD 13, nb := w.getLsbD 12, ab := w.getLsbD 11, nc := w.getLsbD 10, ac := w.getLsbD 9,
    xop := w.extractLsb' 0 9 }
/-- The fields of a word in the I form (R40). -/
def wordI (w : DWord) : IWord :=
  { pg := w.extractLsb' 51 3, pn := w.getLsbD 50, d := w.extractLsb' 42 8, a := w.extractLsb' 34 8, im := w.extractLsb' 32 2,
    imm := w.extractLsb' 0 32 }
/-- The fields of a word in the M form (R41). -/
def wordM (w : DWord) : MWord :=
  { pg := w.extractLsb' 51 3, pn := w.getLsbD 50, d := w.extractLsb' 42 8, a := w.extractLsb' 34 8, b := w.extractLsb' 26 8,
    sc := w.extractLsb' 24 2, ord := w.extractLsb' 22 2, sz := w.extractLsb' 19 3, cp := w.extractLsb' 17 2,
    au := w.getLsbD 16, off := w.extractLsb' 0 16 }
/-- The fields of a word in the B form (R42). -/
def wordB (w : DWord) : BWord :=
  { pg := w.extractLsb' 51 3, pn := w.getLsbD 50, tgt := w.extractLsb' 26 24, bop := w.extractLsb' 0 26 }

/-- The pair opcode with number OP6 (R47); none for a reserved one. -/
def pairOpOf (n : Nat) : Option PairOp :=
  match n with
  | 0x00 => some .mov
  | 0x01 => some .iadd
  | 0x02 => some .isub
  | 0x03 => some .imul
  | 0x04 => some .imin
  | 0x05 => some .imax
  | 0x06 => some .iminN
  | 0x07 => some .imaxN
  | 0x08 => some .and
  | 0x09 => some .or
  | 0x0A => some .xor
  | 0x0B => some .shl
  | 0x0C => some .shr
  | 0x0D => some .sar
  | 0x0E => some .iaddSat
  | 0x0F => some .iaddSatN
  | 0x10 => some .fadd
  | 0x11 => some .fmul
  | 0x12 => some .fmin
  | 0x13 => some .fmax
  | 0x14 => some .faddSat
  | 0x15 => some .fmulSat
  | 0x18 => some .paddH
  | 0x19 => some .pmulH
  | 0x1A => some .pminH
  | 0x1B => some .pmaxH
  | 0x1C => some .paddB
  | 0x1D => some .pmulB
  | 0x1E => some .pminB
  | 0x1F => some .pmaxB
  | _ => none
/-- The number OP6 of a pair opcode (R47). -/
def pairCode (op : PairOp) : BitVec 6 :=
  match op with
  | .mov => 0x00
  | .iadd => 0x01
  | .isub => 0x02
  | .imul => 0x03
  | .imin => 0x04
  | .imax => 0x05
  | .iminN => 0x06
  | .imaxN => 0x07
  | .and => 0x08
  | .or => 0x09
  | .xor => 0x0A
  | .shl => 0x0B
  | .shr => 0x0C
  | .sar => 0x0D
  | .iaddSat => 0x0E
  | .iaddSatN => 0x0F
  | .fadd => 0x10
  | .fmul => 0x11
  | .fmin => 0x12
  | .fmax => 0x13
  | .faddSat => 0x14
  | .fmulSat => 0x15
  | .paddH => 0x18
  | .pmulH => 0x19
  | .pminH => 0x1A
  | .pmaxH => 0x1B
  | .paddB => 0x1C
  | .pmulB => 0x1D
  | .pminB => 0x1E
  | .pmaxB => 0x1F
/-- A half of a pair word (R43), given its opcode. -/
def halfOf (op : PairOp) (h : BitVec 31) : Half :=
  { op, d := h.extractLsb' 17 8, a := h.extractLsb' 9 8, m9 := h.extractLsb' 0 9 }

/-- CCTL by its operation (R153). -/
def cctlOf (r : MWord) : Instr :=
  match r.b.toNat % 8 with
  | 1 => .cctlInv r
  | 2 => .cctlWbinv r
  | 3 => .cctlSyswb r
  | 4 => .cctlSysinv r
  | _ => .cctlWb r
/-- CSRWR, or WDPET by its register number (R389). -/
def csrwrOf (r : IWord) : Instr := if r.imm.toNat = 0x27 then .wdpet r else .csrwr r

/-- The instruction of an assigned or hint OP (R49, R52, R55); none for an unassigned or reserved one. -/
def opInstr (op : Nat) (w : DWord) : Option Instr :=
  match op with
  | 0x000 => some (.nop (wordR w))
  | 0x001 => some (.exit (wordR w))
  | 0x002 => some (.bra (wordB w))
  | 0x003 => some (.brx (wordR w))
  | 0x004 => some (.call (wordB w))
  | 0x005 => some (.callx (wordR w))
  | 0x006 => some (.ret (wordR w))
  | 0x007 => some (.ifThen (wordB w))
  | 0x008 => some (.elseW (wordB w))
  | 0x009 => some .endif
  | 0x00A => some (.loopW (wordB w))
  | 0x00B => some (.endloop (wordB w))
  | 0x00C => some (.breakW (wordB w))
  | 0x00D => some (.cont (wordB w))
  | 0x00E => some .yield
  | 0x00F => some (.sleep (wordI w))
  | 0x020 => some (.iadd (wordR w))
  | 0x021 => some (.iaddI (wordI w))
  | 0x022 => some (.iadd3 (wordR w))
  | 0x023 => some (.isub (wordR w))
  | 0x024 => some (.imul (wordR w))
  | 0x025 => some (.imulI (wordI w))
  | 0x026 => some (.imulh (wordR w))
  | 0x027 => some (.imad (wordR w))
  | 0x028 => some (.imadw (wordR w))
  | 0x029 => some (.idiv (wordR w))
  | 0x02A => some (.irem (wordR w))
  | 0x02B => some (.imin (wordR w))
  | 0x02C => some (.imax (wordR w))
  | 0x02D => some (.isad (wordR w))
  | 0x02E => some (.idot4 (wordR w))
  | 0x02F => some (.idot8 (wordR w))
  | 0x030 => some (.icmp (wordR w))
  | 0x031 => some (.sel (wordR w))
  | 0x032 => some (.andR (wordR w))
  | 0x033 => some (.andI (wordI w))
  | 0x034 => some (.orR (wordR w))
  | 0x035 => some (.orI (wordI w))
  | 0x036 => some (.xorR (wordR w))
  | 0x037 => some (.xorI (wordI w))
  | 0x038 => some (.lop3 (wordR w))
  | 0x039 => some (.shl (wordR w))
  | 0x03A => some (.shr (wordR w))
  | 0x03B => some (.sar (wordR w))
  | 0x03C => some (.shf (wordR w))
  | 0x03D => some (.bfe (wordR w))
  | 0x03E => some (.bfi (wordR w))
  | 0x03F => some (.brev (wordR w))
  | 0x040 => some (.clz (wordR w))
  | 0x041 => some (.popc (wordR w))
  | 0x042 => some (.ffs (wordR w))
  | 0x043 => some (.prmt (wordR w))
  | 0x044 => some (.mov (wordR w))
  | 0x045 => some (.movi (wordI w))
  | 0x046 => some (.movis (wordI w))
  | 0x047 => some (.lea (wordR w))
  | 0x048 => some (.add64 (wordR w))
  | 0x049 => some (.add64I (wordI w))
  | 0x04A => some (.sub64 (wordR w))
  | 0x04B => some (.mul64 (wordR w))
  | 0x04C => some (.cmp64 (wordR w))
  | 0x04D => some (.movs (wordR w))
  | 0x04E => some (.movrx (wordR w))
  | 0x04F => some (.movwx (wordR w))
  | 0x050 => some (.shfl (wordR w))
  | 0x051 => some (.vote (wordR w))
  | 0x052 => some (.redux (wordR w))
  | 0x053 => some (.matchL (wordR w))
  | 0x054 => some (.pset (wordR w))
  | 0x055 => some (.p2v (wordR w))
  | 0x056 => some (.v2p (wordR w))
  | 0x060 => some (.fadd (wordR w))
  | 0x061 => some (.faddI (wordI w))
  | 0x062 => some (.fmul (wordR w))
  | 0x063 => some (.fmulI (wordI w))
  | 0x064 => some (.ffma (wordR w))
  | 0x065 => some (.fmin (wordR w))
  | 0x066 => some (.fmax (wordR w))
  | 0x067 => some (.fcmp (wordR w))
  | 0x068 => some (.frcp (wordR w))
  | 0x069 => some (.frsq (wordR w))
  | 0x06A => some (.fsqrt (wordR w))
  | 0x06B => some (.fdiv (wordR w))
  | 0x06C => some (.fex2 (wordR w))
  | 0x06D => some (.flg2 (wordR w))
  | 0x06E => some (.fsin (wordR w))
  | 0x06F => some (.fcos (wordR w))
  | 0x070 => some (.ftanh (wordR w))
  | 0x071 => some (.fclass (wordR w))
  | 0x072 => some (.frnd (wordR w))
  | 0x080 => some (.dadd (wordR w))
  | 0x081 => some (.dmul (wordR w))
  | 0x082 => some (.dfma (wordR w))
  | 0x083 => some (.dmin (wordR w))
  | 0x084 => some (.dmax (wordR w))
  | 0x085 => some (.dcmp (wordR w))
  | 0x086 => some (.ddiv (wordR w))
  | 0x087 => some (.dsqrt (wordR w))
  | 0x090 => some (.padd2F16 (wordR w))
  | 0x091 => some (.pmul2F16 (wordR w))
  | 0x092 => some (.pfma2F16 (wordR w))
  | 0x093 => some (.pmin2F16 (wordR w))
  | 0x094 => some (.pmax2F16 (wordR w))
  | 0x095 => some (.pcmp2F16 (wordR w))
  | 0x098 => some (.padd2Bf16 (wordR w))
  | 0x099 => some (.pmul2Bf16 (wordR w))
  | 0x09A => some (.pfma2Bf16 (wordR w))
  | 0x09B => some (.pmin2Bf16 (wordR w))
  | 0x09C => some (.pmax2Bf16 (wordR w))
  | 0x09D => some (.pcmp2Bf16 (wordR w))
  | 0x0A0 => some (.cvt (wordR w))
  | 0x0A1 => some (.cvtp (wordR w))
  | 0x0A2 => some (.fsetm (wordR w))
  | 0x0A3 => some (.clrf (wordR w))
  | 0x0B0 => some (.ld (wordM w))
  | 0x0B1 => some (.st (wordM w))
  | 0x0B2 => some (.ldro (wordM w))
  | 0x0B3 => some (.roinv (wordR w))
  | 0x0B4 => some (.lds (wordM w))
  | 0x0B5 => some (.sts (wordM w))
  | 0x0B6 => some (.stmap (wordR w))
  | 0x0B7 => some (.stunmap (wordR w))
  | 0x0B8 => some (.ldm (wordM w))
  | 0x0B9 => some (.stm (wordM w))
  | 0x0BA => some (.pref (wordM w))
  | 0x0BB => some (cctlOf (wordM w))
  | 0x0BC => some (.fence (wordR w))
  | 0x0BD => some (.probe (wordM w))
  | 0x0E0 => some (.atomAdd (wordM w))
  | 0x0E1 => some (.atomMin (wordM w))
  | 0x0E2 => some (.atomMax (wordM w))
  | 0x0E3 => some (.atomAnd (wordM w))
  | 0x0E4 => some (.atomOr (wordM w))
  | 0x0E5 => some (.atomXor (wordM w))
  | 0x0E6 => some (.atomExch (wordM w))
  | 0x0E7 => some (.cas (wordM w))
  | 0x0E8 => some (.redAdd (wordM w))
  | 0x0E9 => some (.redMin (wordM w))
  | 0x0EA => some (.redMax (wordM w))
  | 0x0EB => some (.redAnd (wordM w))
  | 0x0EC => some (.redOr (wordM w))
  | 0x0ED => some (.redXor (wordM w))
  | 0x0EE => some (.atomsAdd (wordM w))
  | 0x0EF => some (.atomsMin (wordM w))
  | 0x0F0 => some (.atomsMax (wordM w))
  | 0x0F1 => some (.atomsAnd (wordM w))
  | 0x0F2 => some (.atomsOr (wordM w))
  | 0x0F3 => some (.atomsXor (wordM w))
  | 0x0F4 => some (.atomsExch (wordM w))
  | 0x0F5 => some (.cass (wordM w))
  | 0x0F6 => some (.bar (wordR w))
  | 0x0F7 => some (.tbinit (wordR w))
  | 0x0F8 => some (.tbarr (wordR w))
  | 0x0F9 => some (.tbexp (wordR w))
  | 0x0FA => some (.tbwait (wordR w))
  | 0x0FB => some (.tbtest (wordR w))
  | 0x0FC => some (.tbinv (wordR w))
  | 0x100 => some (.cpy (wordR w))
  | 0x101 => some (.cpyt (wordR w))
  | 0x102 => some (.cpyf (wordR w))
  | 0x103 => some (.gath (wordR w))
  | 0x104 => some (.scat (wordR w))
  | 0x105 => some (.waitc (wordR w))
  | 0x106 => some (.cpyq (wordR w))
  | 0x107 => some (.cpyx (wordR w))
  | 0x120 => some (.mma (wordR w))
  | 0x121 => some (.mmaq (wordR w))
  | 0x122 => some (.mmaqs (wordR w))
  | 0x123 => some (.mzero (wordR w))
  | 0x124 => some (.mcvt (wordR w))
  | 0x125 => some (.fslot (wordR w))
  | 0x140 => some (.launch (wordR w))
  | 0x141 => some (.cwait (wordR w))
  | 0x142 => some (.regacq (wordR w))
  | 0x143 => some (.regrel (wordR w))
  | 0x144 => some .gangbar
  | 0x150 => some (.treg (wordR w))
  | 0x151 => some (.tfree (wordR w))
  | 0x152 => some (.tsend (wordR w))
  | 0x153 => some (.twait (wordR w))
  | 0x154 => some (.tpoll (wordR w))
  | 0x155 => some (.tmask (wordR w))
  | 0x156 => some (.tpermAdd (wordR w))
  | 0x157 => some (.tret (wordR w))
  | 0x160 => some (.syscall (wordI w))
  | 0x161 => some (.syscallb (wordI w))
  | 0x162 => some (.trapW (wordI w))
  | 0x163 => some (.bkpt (wordI w))
  | 0x164 => some (.sret (wordR w))
  | 0x165 => some (.mqpop (wordR w))
  | 0x166 => some (.mqrplRetry (wordR w))
  | 0x167 => some (.vsrd (wordR w))
  | 0x168 => some (.vswr (wordR w))
  | 0x169 => some (.csrrd (wordI w))
  | 0x16A => some (csrwrOf (wordI w))
  | 0x16B => some (.swapoutReturn (wordR w))
  | 0x16C => some (.swapin (wordR w))
  | 0x16D => some (.ptinvRange (wordR w))
  | 0x16E => some (.tcinv (wordR w))
  | 0x16F => some (.tcpin (wordR w))
  | 0x170 => some (.hqput (wordR w))
  | 0x171 => some (.sigpostUser (wordR w))
  | 0x172 => some (.halt (wordR w))
  | 0x173 => some (.preempt (wordR w))
  | 0x178 => some (.trace (wordR w))
  | 0x179 => some (.wpset (wordR w))
  | 0x17A => some (.wpclr (wordR w))
  | 0x17B => some (.perfrd (wordR w))
  | 0x17C => some (.mark (wordI w))
  | 0x180 => some (.hpri (wordR w))
  | 0x181 => some (.hlive (wordR w))
  | 0x182 => some (.hqlen (wordR w))
  | 0x183 => some (.hloc (wordR w))
  | 0x1C0 => some (.fdiva (wordR w))
  | 0x1C1 => some (.imad24 (wordR w))
  | 0x1C2 => some (.hsel2Ll (wordR w))
  | 0x1C3 => some (.hsel2Lh (wordR w))
  | 0x1C4 => some (.hsel2Hl (wordR w))
  | 0x1C5 => some (.hsel2Hh (wordR w))
  | 0x1C6 => some (.ldnc (wordM w))
  | 0x1C7 => some (.cvth4 (wordR w))
  | 0x1C8 => some (.votex (wordR w))
  | n => if 0x184 ≤ n ∧ n ≤ 0x1BF then some (.hintUnimplemented (BitVec.ofNat 6 (n - 0x180)) (wordR w)) else none

/-- The reasons broken by a word whose opcode takes no operand and no guard: every field after PN is 0 (R75, R89, R250). -/
def bareBad (w : DWord) (i : Instr) : List Nat :=
  match i with
  | .endif | .yield | .gangbar => ruleBad (viewR (wordR w)) (plain (wordR w) .zero .zero .zero .zero 0 []).unguarded
  | _ => []

/-- The instruction, or the ILLEGAL_WORD that a broken rule makes of it, with the halves that R59 marks. -/
def checked (w : DWord) (i : Instr) : Instr :=
  match minReason (bareBad w i ++ decodeBad i) with
  | none => i
  | some n =>
    match i with
    | .pairWord p => .illegalWord w n (n == 3 || (halfBad p.h0).contains n) (n == 3 || (halfBad p.h1).contains n)
    | _ => .illegalWord w n false false

/-- Decoding of a pair word (R43 to R47). -/
def decodePair (w : DWord) : Instr :=
  let h0 : BitVec 31 := w.extractLsb' 31 31
  let h1 : BitVec 31 := w.extractLsb' 0 31
  match pairOpOf (h0.extractLsb' 25 6).toNat, pairOpOf (h1.extractLsb' 25 6).toNat with
  | some o0, some o1 =>
    if w.getLsbD 62 then .illegalWord w 2 false false else checked w (.pairWord { h0 := halfOf o0 h0, h1 := halfOf o1 h1 })
  | x, y => .illegalWord w 2 x.isNone y.isNone

/-- The instruction that a 64-bit word stands for, on any word (R56 to R59). -/
def decodeWord (w : DWord) : Instr :=
  if w.getLsbD 63 then decodePair w
  else match opInstr (w.extractLsb' 54 9).toNat w with
    | none => .illegalWord w 1 false false
    | some i => checked w i

/-- Eight bytes as a word, the first the least significant (R2). -/
def bytesWord (l : List Byte) : DWord := BitVec.ofNat 64 (l.foldr (fun b n => b.toNat + 256 * n) 0)
/-- The eight bytes of a word, the least significant first (R2). -/
def wordBytes (w : DWord) : List Byte := (List.range 8).map (fun k => w.extractLsb' (8 * k) 8)

/-- Decoding of bytes: an instruction and the rest; none for fewer than eight bytes (R26). -/
def decodeBytes (l : List Byte) : Option (Instr × List Byte) :=
  if l.length < 8 then none else some (decodeWord (bytesWord (l.take 8)), l.drop 8)

/-- A word of the R form. -/
def packR (op : BitVec 9) (r : RWord) : DWord :=
  0#1 ++ op ++ r.pg ++ BitVec.ofBool r.pn ++ r.d ++ r.a ++ r.b ++ r.c ++ BitVec.ofBool r.ua ++ BitVec.ofBool r.ub ++
    BitVec.ofBool r.uc ++ BitVec.ofBool r.na ++ BitVec.ofBool r.aa ++ BitVec.ofBool r.nb ++ BitVec.ofBool r.ab ++
    BitVec.ofBool r.nc ++ BitVec.ofBool r.ac ++ r.xop
/-- The fields of a word that takes no operand and no guard: PG = 7, the rest 0. -/
def bareR : RWord :=
  { pg := 7, pn := false, d := 0, a := 0, b := 0, c := 0, ua := false, ub := false, uc := false, na := false, aa := false,
    nb := false, ab := false, nc := false, ac := false, xop := 0 }
/-- A word of the I form. -/
def packI (op : BitVec 9) (r : IWord) : DWord :=
  0#1 ++ op ++ r.pg ++ BitVec.ofBool r.pn ++ r.d ++ r.a ++ r.im ++ r.imm
/-- A word of the M form. -/
def packM (op : BitVec 9) (r : MWord) : DWord :=
  0#1 ++ op ++ r.pg ++ BitVec.ofBool r.pn ++ r.d ++ r.a ++ r.b ++ r.sc ++ r.ord ++ r.sz ++ r.cp ++ BitVec.ofBool r.au ++ r.off
/-- A word of the B form. -/
def packB (op : BitVec 9) (r : BWord) : DWord :=
  0#1 ++ op ++ r.pg ++ BitVec.ofBool r.pn ++ r.tgt ++ r.bop
/-- The bits of a half. -/
def packHalf (h : Half) : BitVec 31 := pairCode h.op ++ h.d ++ h.a ++ h.m9
/-- A pair word. -/
def packPair (p : PairWord) : DWord := 1#1 ++ 0#1 ++ packHalf p.h0 ++ packHalf p.h1

/-- The OP of a full word's instruction (R49); none for a pair word, an ILLEGAL_WORD and an event. -/
def opcodeOf (i : Instr) : Option Nat :=
  match i with
  | .nop _ => some 0x000
  | .exit _ => some 0x001
  | .bra _ => some 0x002
  | .brx _ => some 0x003
  | .call _ => some 0x004
  | .callx _ => some 0x005
  | .ret _ => some 0x006
  | .ifThen _ => some 0x007
  | .elseW _ => some 0x008
  | .loopW _ => some 0x00A
  | .endloop _ => some 0x00B
  | .breakW _ => some 0x00C
  | .cont _ => some 0x00D
  | .sleep _ => some 0x00F
  | .illegalWord _ _ _ _ => none
  | .pairWord _ => none
  | .iadd _ => some 0x020
  | .iaddI _ => some 0x021
  | .iadd3 _ => some 0x022
  | .isub _ => some 0x023
  | .imul _ => some 0x024
  | .imulI _ => some 0x025
  | .imulh _ => some 0x026
  | .imad _ => some 0x027
  | .imadw _ => some 0x028
  | .idiv _ => some 0x029
  | .irem _ => some 0x02A
  | .imin _ => some 0x02B
  | .imax _ => some 0x02C
  | .isad _ => some 0x02D
  | .idot4 _ => some 0x02E
  | .idot8 _ => some 0x02F
  | .icmp _ => some 0x030
  | .sel _ => some 0x031
  | .andR _ => some 0x032
  | .andI _ => some 0x033
  | .orR _ => some 0x034
  | .orI _ => some 0x035
  | .xorR _ => some 0x036
  | .xorI _ => some 0x037
  | .lop3 _ => some 0x038
  | .shl _ => some 0x039
  | .shr _ => some 0x03A
  | .sar _ => some 0x03B
  | .shf _ => some 0x03C
  | .bfe _ => some 0x03D
  | .bfi _ => some 0x03E
  | .brev _ => some 0x03F
  | .clz _ => some 0x040
  | .popc _ => some 0x041
  | .ffs _ => some 0x042
  | .prmt _ => some 0x043
  | .mov _ => some 0x044
  | .movi _ => some 0x045
  | .movis _ => some 0x046
  | .lea _ => some 0x047
  | .add64 _ => some 0x048
  | .add64I _ => some 0x049
  | .sub64 _ => some 0x04A
  | .mul64 _ => some 0x04B
  | .cmp64 _ => some 0x04C
  | .movs _ => some 0x04D
  | .movrx _ => some 0x04E
  | .movwx _ => some 0x04F
  | .shfl _ => some 0x050
  | .vote _ => some 0x051
  | .redux _ => some 0x052
  | .matchL _ => some 0x053
  | .pset _ => some 0x054
  | .p2v _ => some 0x055
  | .v2p _ => some 0x056
  | .fadd _ => some 0x060
  | .faddI _ => some 0x061
  | .fmul _ => some 0x062
  | .fmulI _ => some 0x063
  | .ffma _ => some 0x064
  | .fmin _ => some 0x065
  | .fmax _ => some 0x066
  | .fcmp _ => some 0x067
  | .frcp _ => some 0x068
  | .frsq _ => some 0x069
  | .fsqrt _ => some 0x06A
  | .fdiv _ => some 0x06B
  | .fex2 _ => some 0x06C
  | .flg2 _ => some 0x06D
  | .fsin _ => some 0x06E
  | .fcos _ => some 0x06F
  | .ftanh _ => some 0x070
  | .fclass _ => some 0x071
  | .frnd _ => some 0x072
  | .dadd _ => some 0x080
  | .dmul _ => some 0x081
  | .dfma _ => some 0x082
  | .dmin _ => some 0x083
  | .dmax _ => some 0x084
  | .dcmp _ => some 0x085
  | .ddiv _ => some 0x086
  | .dsqrt _ => some 0x087
  | .padd2F16 _ => some 0x090
  | .pmul2F16 _ => some 0x091
  | .pfma2F16 _ => some 0x092
  | .pmin2F16 _ => some 0x093
  | .pmax2F16 _ => some 0x094
  | .pcmp2F16 _ => some 0x095
  | .padd2Bf16 _ => some 0x098
  | .pmul2Bf16 _ => some 0x099
  | .pfma2Bf16 _ => some 0x09A
  | .pmin2Bf16 _ => some 0x09B
  | .pmax2Bf16 _ => some 0x09C
  | .pcmp2Bf16 _ => some 0x09D
  | .cvt _ => some 0x0A0
  | .cvtp _ => some 0x0A1
  | .fsetm _ => some 0x0A2
  | .clrf _ => some 0x0A3
  | .ld _ => some 0x0B0
  | .st _ => some 0x0B1
  | .ldro _ => some 0x0B2
  | .roinv _ => some 0x0B3
  | .lds _ => some 0x0B4
  | .sts _ => some 0x0B5
  | .stmap _ => some 0x0B6
  | .stunmap _ => some 0x0B7
  | .ldm _ => some 0x0B8
  | .stm _ => some 0x0B9
  | .pref _ => some 0x0BA
  | .cctlWb _ => some 0x0BB
  | .cctlInv _ => some 0x0BB
  | .cctlWbinv _ => some 0x0BB
  | .cctlSyswb _ => some 0x0BB
  | .cctlSysinv _ => some 0x0BB
  | .fence _ => some 0x0BC
  | .probe _ => some 0x0BD
  | .atomAdd _ => some 0x0E0
  | .atomMin _ => some 0x0E1
  | .atomMax _ => some 0x0E2
  | .atomAnd _ => some 0x0E3
  | .atomOr _ => some 0x0E4
  | .atomXor _ => some 0x0E5
  | .atomExch _ => some 0x0E6
  | .cas _ => some 0x0E7
  | .redAdd _ => some 0x0E8
  | .redMin _ => some 0x0E9
  | .redMax _ => some 0x0EA
  | .redAnd _ => some 0x0EB
  | .redOr _ => some 0x0EC
  | .redXor _ => some 0x0ED
  | .atomsAdd _ => some 0x0EE
  | .atomsMin _ => some 0x0EF
  | .atomsMax _ => some 0x0F0
  | .atomsAnd _ => some 0x0F1
  | .atomsOr _ => some 0x0F2
  | .atomsXor _ => some 0x0F3
  | .atomsExch _ => some 0x0F4
  | .cass _ => some 0x0F5
  | .bar _ => some 0x0F6
  | .tbinit _ => some 0x0F7
  | .tbarr _ => some 0x0F8
  | .tbexp _ => some 0x0F9
  | .tbwait _ => some 0x0FA
  | .tbtest _ => some 0x0FB
  | .tbinv _ => some 0x0FC
  | .cpy _ => some 0x100
  | .cpyt _ => some 0x101
  | .cpyf _ => some 0x102
  | .gath _ => some 0x103
  | .scat _ => some 0x104
  | .waitc _ => some 0x105
  | .cpyq _ => some 0x106
  | .cpyx _ => some 0x107
  | .mma _ => some 0x120
  | .mmaq _ => some 0x121
  | .mmaqs _ => some 0x122
  | .mzero _ => some 0x123
  | .mcvt _ => some 0x124
  | .fslot _ => some 0x125
  | .launch _ => some 0x140
  | .cwait _ => some 0x141
  | .regacq _ => some 0x142
  | .regrel _ => some 0x143
  | .treg _ => some 0x150
  | .tfree _ => some 0x151
  | .tsend _ => some 0x152
  | .twait _ => some 0x153
  | .tpoll _ => some 0x154
  | .tmask _ => some 0x155
  | .tpermAdd _ => some 0x156
  | .tpermRemove _ => some 0x156
  | .tpermClear _ => some 0x156
  | .tret _ => some 0x157
  | .syscall _ => some 0x160
  | .syscallb _ => some 0x161
  | .trapW _ => some 0x162
  | .bkpt _ => some 0x163
  | .sret _ => some 0x164
  | .mqpop _ => some 0x165
  | .mqrplRetry _ => some 0x166
  | .mqrplNext _ => some 0x166
  | .mqrplPark _ => some 0x166
  | .mqrplResume _ => some 0x166
  | .mqrplFail _ => some 0x166
  | .mqrplAck _ => some 0x166
  | .vsrd _ => some 0x167
  | .vswr _ => some 0x168
  | .csrrd _ => some 0x169
  | .csrwr _ => some 0x16A
  | .wdpet _ => some 0x16A
  | .swapoutReturn _ => some 0x16B
  | .swapoutStop _ => some 0x16B
  | .swapoutDiscard _ => some 0x16B
  | .swapin _ => some 0x16C
  | .hqput _ => some 0x170
  | .sigpostUser _ => some 0x171
  | .sigpostStop _ => some 0x171
  | .sigpostCont _ => some 0x171
  | .sigpostKill _ => some 0x171
  | .halt _ => some 0x172
  | .preempt _ => some 0x173
  | .ptinvRange _ => some 0x16D
  | .ptinvAsid _ => some 0x16D
  | .ptinvPartition _ => some 0x16D
  | .tcinv _ => some 0x16E
  | .tcpin _ => some 0x16F
  | .tcpinUnpin _ => some 0x16F
  | .fdiva _ => some 0x1C0
  | .imad24 _ => some 0x1C1
  | .hsel2Ll _ => some 0x1C2
  | .hsel2Lh _ => some 0x1C3
  | .hsel2Hl _ => some 0x1C4
  | .hsel2Hh _ => some 0x1C5
  | .ldnc _ => some 0x1C6
  | .cvth4 _ => some 0x1C7
  | .votex _ => some 0x1C8
  | .hpri _ => some 0x180
  | .hlive _ => some 0x181
  | .hqlen _ => some 0x182
  | .hloc _ => some 0x183
  | .hintUnimplemented code _ => some (0x180 + code.toNat)
  | .trace _ => some 0x178
  | .mark _ => some 0x17C
  | .wpset _ => some 0x179
  | .wpsetBp _ => some 0x179
  | .wpclr _ => some 0x17A
  | .wpclrBp _ => some 0x17A
  | .perfrd _ => some 0x17B
  | .preemptRelease _ => some 0x173
  | .endif => some 0x009
  | .yield => some 0x00E
  | .gangbar => some 0x144
  | .resolveAfterTret _ => none
  | .stopSecondary _ => none
  | .sleepWake _ _ => none
  | .engineSlotGrant _ _ => none
  | .engineBytesDone _ _ _ => none
  | .engineOpComplete _ _ => none
  | .engineAccessFault _ _ => none
  | .engineOpFail _ _ _ => none
  | .quadForm _ _ => none
  | .regacqGrant _ => none
  | .registerStall _ => none
  | .coreWorkRequest _ => none
  | .gangEnlistTimeout _ _ => none
  | .displaceWaitingParent _ => none
  | .displaceHigherBlock _ _ => none
  | .blockRetire _ => none
  | .gridRetire _ _ => none
  | .tetherEntry _ => none
  | .hostDoorbellStore _ _ _ _ => none
  | .mooringEntryTake _ => none
  | .hostReply _ _ _ _ => none
  | .callGetid _ _ => none
  | .callDmap _ _ _ => none
  | .callDunmap _ _ => none
  | .callSigmask _ _ => none
  | .callForwarded _ _ => none
  | .permissionCacheFill _ _ _ => none
  | .loadPerformed _ _ _ _ => none
  | .l1Eviction _ _ _ => none
  | .postedWriteFail _ _ => none
  | .linkResponseTimeout _ => none
  | .hostSnoop _ _ => none
  | .hostHdmAccess _ _ _ _ _ => none
  | .ualinkInboundAccess _ => none
  | .ualinkTetherRequest _ _ _ _ _ _ => none
  | .ualinkPortFail _ => none
  | .keptResponseExpire _ _ => none
  | .translationMiss _ _ _ => none
  | .traceDrain _ => none
  | .coreUncorrectableError _ _ => none
  | .sqtailWrite _ _ _ => none
  | .submitLaunch _ _ _ => none
  | .submitLoad _ _ _ _ _ => none
  | .submitInval _ _ _ _ => none
  | .submitReclaim _ _ _ => none
  | .submitBinddb _ _ _ _ => none
  | .submitWindow _ _ _ _ _ => none
  | .hostBlockWrite _ _ _ => none
  | .peerWindowWrite _ _ _ _ _ => none
  | .peerWindowRead _ _ _ _ => none
  | .peerDoorbellWrite _ _ _ => none
  | .peerUnsupportedRequest _ => none
  | .hostPortDown => none
  | .graceExpire _ => none
  | .coldReset _ => none
  | .watchdogExpire _ => none
  | .partitionResetRequest _ => none
  | .debugStopArm _ _ => none
  | .debugStop _ => none
  | .spdmCert => none
  | .spdmChal _ => none
  | .spdmMeas => none
  | .extend _ _ => none
  | .lastEventsRead => none
  | .powerCap _ => none
  | .governorTick _ => none
  | .railCurrentThrottle _ _ => none
  | .thermalLimit _ _ => none
  | .postedWriteAck _ => none
  | .tetherApertureResponse _ _ => none
  | .hostPortUp _ _ => none
  | .ualinkPortRetrain _ => none
  | .memoryPoisonFound _ => none
  | .permissionCacheEviction _ _ => none
  | .createContext _ => none

/-- The word of an instruction, from the encoding tables; none for an event, which has no word. -/
def encode (i : Instr) : Option DWord :=
  match i with
  | .nop r => some (packR 0x000 r)
  | .exit r => some (packR 0x001 r)
  | .bra r => some (packB 0x002 r)
  | .brx r => some (packR 0x003 r)
  | .call r => some (packB 0x004 r)
  | .callx r => some (packR 0x005 r)
  | .ret r => some (packR 0x006 r)
  | .ifThen r => some (packB 0x007 r)
  | .elseW r => some (packB 0x008 r)
  | .loopW r => some (packB 0x00A r)
  | .endloop r => some (packB 0x00B r)
  | .breakW r => some (packB 0x00C r)
  | .cont r => some (packB 0x00D r)
  | .sleep r => some (packI 0x00F r)
  | .illegalWord w _ _ _ => some w
  | .pairWord p => some (packPair p)
  | .iadd r => some (packR 0x020 r)
  | .iaddI r => some (packI 0x021 r)
  | .iadd3 r => some (packR 0x022 r)
  | .isub r => some (packR 0x023 r)
  | .imul r => some (packR 0x024 r)
  | .imulI r => some (packI 0x025 r)
  | .imulh r => some (packR 0x026 r)
  | .imad r => some (packR 0x027 r)
  | .imadw r => some (packR 0x028 r)
  | .idiv r => some (packR 0x029 r)
  | .irem r => some (packR 0x02A r)
  | .imin r => some (packR 0x02B r)
  | .imax r => some (packR 0x02C r)
  | .isad r => some (packR 0x02D r)
  | .idot4 r => some (packR 0x02E r)
  | .idot8 r => some (packR 0x02F r)
  | .icmp r => some (packR 0x030 r)
  | .sel r => some (packR 0x031 r)
  | .andR r => some (packR 0x032 r)
  | .andI r => some (packI 0x033 r)
  | .orR r => some (packR 0x034 r)
  | .orI r => some (packI 0x035 r)
  | .xorR r => some (packR 0x036 r)
  | .xorI r => some (packI 0x037 r)
  | .lop3 r => some (packR 0x038 r)
  | .shl r => some (packR 0x039 r)
  | .shr r => some (packR 0x03A r)
  | .sar r => some (packR 0x03B r)
  | .shf r => some (packR 0x03C r)
  | .bfe r => some (packR 0x03D r)
  | .bfi r => some (packR 0x03E r)
  | .brev r => some (packR 0x03F r)
  | .clz r => some (packR 0x040 r)
  | .popc r => some (packR 0x041 r)
  | .ffs r => some (packR 0x042 r)
  | .prmt r => some (packR 0x043 r)
  | .mov r => some (packR 0x044 r)
  | .movi r => some (packI 0x045 r)
  | .movis r => some (packI 0x046 r)
  | .lea r => some (packR 0x047 r)
  | .add64 r => some (packR 0x048 r)
  | .add64I r => some (packI 0x049 r)
  | .sub64 r => some (packR 0x04A r)
  | .mul64 r => some (packR 0x04B r)
  | .cmp64 r => some (packR 0x04C r)
  | .movs r => some (packR 0x04D r)
  | .movrx r => some (packR 0x04E r)
  | .movwx r => some (packR 0x04F r)
  | .shfl r => some (packR 0x050 r)
  | .vote r => some (packR 0x051 r)
  | .redux r => some (packR 0x052 r)
  | .matchL r => some (packR 0x053 r)
  | .pset r => some (packR 0x054 r)
  | .p2v r => some (packR 0x055 r)
  | .v2p r => some (packR 0x056 r)
  | .fadd r => some (packR 0x060 r)
  | .faddI r => some (packI 0x061 r)
  | .fmul r => some (packR 0x062 r)
  | .fmulI r => some (packI 0x063 r)
  | .ffma r => some (packR 0x064 r)
  | .fmin r => some (packR 0x065 r)
  | .fmax r => some (packR 0x066 r)
  | .fcmp r => some (packR 0x067 r)
  | .frcp r => some (packR 0x068 r)
  | .frsq r => some (packR 0x069 r)
  | .fsqrt r => some (packR 0x06A r)
  | .fdiv r => some (packR 0x06B r)
  | .fex2 r => some (packR 0x06C r)
  | .flg2 r => some (packR 0x06D r)
  | .fsin r => some (packR 0x06E r)
  | .fcos r => some (packR 0x06F r)
  | .ftanh r => some (packR 0x070 r)
  | .fclass r => some (packR 0x071 r)
  | .frnd r => some (packR 0x072 r)
  | .dadd r => some (packR 0x080 r)
  | .dmul r => some (packR 0x081 r)
  | .dfma r => some (packR 0x082 r)
  | .dmin r => some (packR 0x083 r)
  | .dmax r => some (packR 0x084 r)
  | .dcmp r => some (packR 0x085 r)
  | .ddiv r => some (packR 0x086 r)
  | .dsqrt r => some (packR 0x087 r)
  | .padd2F16 r => some (packR 0x090 r)
  | .pmul2F16 r => some (packR 0x091 r)
  | .pfma2F16 r => some (packR 0x092 r)
  | .pmin2F16 r => some (packR 0x093 r)
  | .pmax2F16 r => some (packR 0x094 r)
  | .pcmp2F16 r => some (packR 0x095 r)
  | .padd2Bf16 r => some (packR 0x098 r)
  | .pmul2Bf16 r => some (packR 0x099 r)
  | .pfma2Bf16 r => some (packR 0x09A r)
  | .pmin2Bf16 r => some (packR 0x09B r)
  | .pmax2Bf16 r => some (packR 0x09C r)
  | .pcmp2Bf16 r => some (packR 0x09D r)
  | .cvt r => some (packR 0x0A0 r)
  | .cvtp r => some (packR 0x0A1 r)
  | .fsetm r => some (packR 0x0A2 r)
  | .clrf r => some (packR 0x0A3 r)
  | .ld r => some (packM 0x0B0 r)
  | .st r => some (packM 0x0B1 r)
  | .ldro r => some (packM 0x0B2 r)
  | .roinv r => some (packR 0x0B3 r)
  | .lds r => some (packM 0x0B4 r)
  | .sts r => some (packM 0x0B5 r)
  | .stmap r => some (packR 0x0B6 r)
  | .stunmap r => some (packR 0x0B7 r)
  | .ldm r => some (packM 0x0B8 r)
  | .stm r => some (packM 0x0B9 r)
  | .pref r => some (packM 0x0BA r)
  | .cctlWb r => some (packM 0x0BB r)
  | .cctlInv r => some (packM 0x0BB r)
  | .cctlWbinv r => some (packM 0x0BB r)
  | .cctlSyswb r => some (packM 0x0BB r)
  | .cctlSysinv r => some (packM 0x0BB r)
  | .fence r => some (packR 0x0BC r)
  | .probe r => some (packM 0x0BD r)
  | .atomAdd r => some (packM 0x0E0 r)
  | .atomMin r => some (packM 0x0E1 r)
  | .atomMax r => some (packM 0x0E2 r)
  | .atomAnd r => some (packM 0x0E3 r)
  | .atomOr r => some (packM 0x0E4 r)
  | .atomXor r => some (packM 0x0E5 r)
  | .atomExch r => some (packM 0x0E6 r)
  | .cas r => some (packM 0x0E7 r)
  | .redAdd r => some (packM 0x0E8 r)
  | .redMin r => some (packM 0x0E9 r)
  | .redMax r => some (packM 0x0EA r)
  | .redAnd r => some (packM 0x0EB r)
  | .redOr r => some (packM 0x0EC r)
  | .redXor r => some (packM 0x0ED r)
  | .atomsAdd r => some (packM 0x0EE r)
  | .atomsMin r => some (packM 0x0EF r)
  | .atomsMax r => some (packM 0x0F0 r)
  | .atomsAnd r => some (packM 0x0F1 r)
  | .atomsOr r => some (packM 0x0F2 r)
  | .atomsXor r => some (packM 0x0F3 r)
  | .atomsExch r => some (packM 0x0F4 r)
  | .cass r => some (packM 0x0F5 r)
  | .bar r => some (packR 0x0F6 r)
  | .tbinit r => some (packR 0x0F7 r)
  | .tbarr r => some (packR 0x0F8 r)
  | .tbexp r => some (packR 0x0F9 r)
  | .tbwait r => some (packR 0x0FA r)
  | .tbtest r => some (packR 0x0FB r)
  | .tbinv r => some (packR 0x0FC r)
  | .cpy r => some (packR 0x100 r)
  | .cpyt r => some (packR 0x101 r)
  | .cpyf r => some (packR 0x102 r)
  | .gath r => some (packR 0x103 r)
  | .scat r => some (packR 0x104 r)
  | .waitc r => some (packR 0x105 r)
  | .cpyq r => some (packR 0x106 r)
  | .cpyx r => some (packR 0x107 r)
  | .mma r => some (packR 0x120 r)
  | .mmaq r => some (packR 0x121 r)
  | .mmaqs r => some (packR 0x122 r)
  | .mzero r => some (packR 0x123 r)
  | .mcvt r => some (packR 0x124 r)
  | .fslot r => some (packR 0x125 r)
  | .launch r => some (packR 0x140 r)
  | .cwait r => some (packR 0x141 r)
  | .regacq r => some (packR 0x142 r)
  | .regrel r => some (packR 0x143 r)
  | .treg r => some (packR 0x150 r)
  | .tfree r => some (packR 0x151 r)
  | .tsend r => some (packR 0x152 r)
  | .twait r => some (packR 0x153 r)
  | .tpoll r => some (packR 0x154 r)
  | .tmask r => some (packR 0x155 r)
  | .tpermAdd r => some (packR 0x156 r)
  | .tpermRemove r => some (packR 0x156 r)
  | .tpermClear r => some (packR 0x156 r)
  | .tret r => some (packR 0x157 r)
  | .syscall r => some (packI 0x160 r)
  | .syscallb r => some (packI 0x161 r)
  | .trapW r => some (packI 0x162 r)
  | .bkpt r => some (packI 0x163 r)
  | .sret r => some (packR 0x164 r)
  | .mqpop r => some (packR 0x165 r)
  | .mqrplRetry r => some (packR 0x166 r)
  | .mqrplNext r => some (packR 0x166 r)
  | .mqrplPark r => some (packR 0x166 r)
  | .mqrplResume r => some (packR 0x166 r)
  | .mqrplFail r => some (packR 0x166 r)
  | .mqrplAck r => some (packR 0x166 r)
  | .vsrd r => some (packR 0x167 r)
  | .vswr r => some (packR 0x168 r)
  | .csrrd r => some (packI 0x169 r)
  | .csrwr r => some (packI 0x16A r)
  | .wdpet r => some (packI 0x16A r)
  | .swapoutReturn r => some (packR 0x16B r)
  | .swapoutStop r => some (packR 0x16B r)
  | .swapoutDiscard r => some (packR 0x16B r)
  | .swapin r => some (packR 0x16C r)
  | .hqput r => some (packR 0x170 r)
  | .sigpostUser r => some (packR 0x171 r)
  | .sigpostStop r => some (packR 0x171 r)
  | .sigpostCont r => some (packR 0x171 r)
  | .sigpostKill r => some (packR 0x171 r)
  | .halt r => some (packR 0x172 r)
  | .preempt r => some (packR 0x173 r)
  | .ptinvRange r => some (packR 0x16D r)
  | .ptinvAsid r => some (packR 0x16D r)
  | .ptinvPartition r => some (packR 0x16D r)
  | .tcinv r => some (packR 0x16E r)
  | .tcpin r => some (packR 0x16F r)
  | .tcpinUnpin r => some (packR 0x16F r)
  | .fdiva r => some (packR 0x1C0 r)
  | .imad24 r => some (packR 0x1C1 r)
  | .hsel2Ll r => some (packR 0x1C2 r)
  | .hsel2Lh r => some (packR 0x1C3 r)
  | .hsel2Hl r => some (packR 0x1C4 r)
  | .hsel2Hh r => some (packR 0x1C5 r)
  | .ldnc r => some (packM 0x1C6 r)
  | .cvth4 r => some (packR 0x1C7 r)
  | .votex r => some (packR 0x1C8 r)
  | .hpri r => some (packR 0x180 r)
  | .hlive r => some (packR 0x181 r)
  | .hqlen r => some (packR 0x182 r)
  | .hloc r => some (packR 0x183 r)
  | .hintUnimplemented code r => some (packR (0x180 + code.zeroExtend 9) r)
  | .trace r => some (packR 0x178 r)
  | .mark r => some (packI 0x17C r)
  | .wpset r => some (packR 0x179 r)
  | .wpsetBp r => some (packR 0x179 r)
  | .wpclr r => some (packR 0x17A r)
  | .wpclrBp r => some (packR 0x17A r)
  | .perfrd r => some (packR 0x17B r)
  | .preemptRelease r => some (packR 0x173 r)
  | .endif => some (packR 0x009 bareR)
  | .yield => some (packR 0x00E bareR)
  | .gangbar => some (packR 0x144 bareR)
  | .resolveAfterTret _ => none
  | .stopSecondary _ => none
  | .sleepWake _ _ => none
  | .engineSlotGrant _ _ => none
  | .engineBytesDone _ _ _ => none
  | .engineOpComplete _ _ => none
  | .engineAccessFault _ _ => none
  | .engineOpFail _ _ _ => none
  | .quadForm _ _ => none
  | .regacqGrant _ => none
  | .registerStall _ => none
  | .coreWorkRequest _ => none
  | .gangEnlistTimeout _ _ => none
  | .displaceWaitingParent _ => none
  | .displaceHigherBlock _ _ => none
  | .blockRetire _ => none
  | .gridRetire _ _ => none
  | .tetherEntry _ => none
  | .hostDoorbellStore _ _ _ _ => none
  | .mooringEntryTake _ => none
  | .hostReply _ _ _ _ => none
  | .callGetid _ _ => none
  | .callDmap _ _ _ => none
  | .callDunmap _ _ => none
  | .callSigmask _ _ => none
  | .callForwarded _ _ => none
  | .permissionCacheFill _ _ _ => none
  | .loadPerformed _ _ _ _ => none
  | .l1Eviction _ _ _ => none
  | .postedWriteFail _ _ => none
  | .linkResponseTimeout _ => none
  | .hostSnoop _ _ => none
  | .hostHdmAccess _ _ _ _ _ => none
  | .ualinkInboundAccess _ => none
  | .ualinkTetherRequest _ _ _ _ _ _ => none
  | .ualinkPortFail _ => none
  | .keptResponseExpire _ _ => none
  | .translationMiss _ _ _ => none
  | .traceDrain _ => none
  | .coreUncorrectableError _ _ => none
  | .sqtailWrite _ _ _ => none
  | .submitLaunch _ _ _ => none
  | .submitLoad _ _ _ _ _ => none
  | .submitInval _ _ _ _ => none
  | .submitReclaim _ _ _ => none
  | .submitBinddb _ _ _ _ => none
  | .submitWindow _ _ _ _ _ => none
  | .hostBlockWrite _ _ _ => none
  | .peerWindowWrite _ _ _ _ _ => none
  | .peerWindowRead _ _ _ _ => none
  | .peerDoorbellWrite _ _ _ => none
  | .peerUnsupportedRequest _ => none
  | .hostPortDown => none
  | .graceExpire _ => none
  | .coldReset _ => none
  | .watchdogExpire _ => none
  | .partitionResetRequest _ => none
  | .debugStopArm _ _ => none
  | .debugStop _ => none
  | .spdmCert => none
  | .spdmChal _ => none
  | .spdmMeas => none
  | .extend _ _ => none
  | .lastEventsRead => none
  | .powerCap _ => none
  | .governorTick _ => none
  | .railCurrentThrottle _ _ => none
  | .thermalLimit _ _ => none
  | .postedWriteAck _ => none
  | .tetherApertureResponse _ _ => none
  | .hostPortUp _ _ => none
  | .ualinkPortRetrain _ => none
  | .memoryPoisonFound _ => none
  | .permissionCacheEviction _ _ => none
  | .createContext _ => none

/-- The instruction of the table that a word's own operand values do not tell apart from the first row of its code: the
decoder answers that first row, and the step tells the rows apart by the operand. -/
def canon (i : Instr) : Instr :=
  match i with
  | .tpermRemove r => .tpermAdd r
  | .tpermClear r => .tpermAdd r
  | .mqrplNext r => .mqrplRetry r
  | .mqrplPark r => .mqrplRetry r
  | .mqrplResume r => .mqrplRetry r
  | .mqrplFail r => .mqrplRetry r
  | .mqrplAck r => .mqrplRetry r
  | .swapoutStop r => .swapoutReturn r
  | .swapoutDiscard r => .swapoutReturn r
  | .sigpostStop r => .sigpostUser r
  | .sigpostCont r => .sigpostUser r
  | .sigpostKill r => .sigpostUser r
  | .ptinvAsid r => .ptinvRange r
  | .ptinvPartition r => .ptinvRange r
  | .tcpinUnpin r => .tcpin r
  | .wpsetBp r => .wpset r
  | .wpclrBp r => .wpclr r
  | .preemptRelease r => .preempt r
  | _ => i

/-- The decoder on a row of the table: one 64-bit word whose bits are w (R26). -/
def decodeTableWord (nbits w : Nat) : Option Instr :=
  if nbits ≤ 64 then (decodeBytes (wordBytes (BitVec.ofNat 64 w))).map Prod.fst else none

end Sys2Proof
end

