-- ==== Sys2Proof/Config.lean ====
section
/-! DEFINITION. What one device fixes (its manifest, its firmware entry), and the free values: what the spec leaves open has
no body here, so nothing can be proved of it. -/
namespace Sys2Proof.Config

/-- A byte that the spec leaves unspecified: R191 (overlapping copies), R205 (bytes beyond DONE of a cancelled operation).
Applied to the state's free counter (DESIGN CHOICE, log 5). -/
opaque freeByte : Nat → Byte
/-- A word that the spec leaves unspecified: VSRD of a stack position at or above DEPTH (R303), the advisory values of R13
and R54 (DESIGN CHOICE, log 5). -/
opaque freeWord : Nat → Word
/-- A count that the spec leaves to timing: performance counters (R365), slot occupancy (R54, R204) (DESIGN CHOICE, log 5). -/
opaque freeNat : Nat → Nat
/-- By how much the global tick advances with a step, beside the 1 of every round of cycles (R10, R13): the spec relates no instruction to
the tick (DESIGN CHOICE, log 6). -/
opaque tickAdvance : Nat → DWord
/-- The hash of an address that spreads the requests to one chip over its ports (R378), which no rule gives (DESIGN CHOICE, log 63). -/
opaque portHash : DWord → Nat
/-- Where the core supervisor firmware asks the host to put the reply to a message of a tag (R310; DESIGN CHOICE, log 26). -/
opaque replyBuffer : Nat → DWord
/-- SHAKE256 with 512 bits of output (R383), which the manual names and does not define (DESIGN CHOICE, log 3). -/
opaque shake256 : List Byte → BitVec 512
/-- The SHAKE256 digest of the Knatum root key that the boot ROM holds (R383), which no manual gives (DESIGN CHOICE, log 3). -/
opaque rootDigest : BitVec 512
/-- Whether an FN-DSA signature over a digest verifies with a key (R383), which the manual names and does not define (DESIGN CHOICE, log 3). -/
opaque fnDsa : List Byte → BitVec 512 → List Byte → Bool
/-- SHA-384 (R385), which the manual names and does not define (DESIGN CHOICE, log 3). -/
opaque sha384 : List Byte → BitVec 384
/-- The device's ECDSA P-384 signature (R385), whose key no manual gives (DESIGN CHOICE, log 3). -/
opaque sign : List Byte → List DWord

/-- A partition record that names nothing. -/
def noPart : PartRecord := { sect := 0, stk := 0, world := 0, ports := 0, wdt := 1, fwres := 0, reserved := 0 }
/-- The one partition of the default manifest (DESIGN CHOICE, log 3): every section, stack and port, a watchdog of 60 seconds, and the
firmware reserve in the last 512 MiB of device memory. -/
def part0 : PartRecord :=
  { sect := 0xFFF, stk := 0xFF, world := 0, ports := 0xFFFF, wdt := 60, fwres := 0x5FE0000000, reserved := 0 }
/-- The manifest of the device that `State.reset` describes (R14, R386; DESIGN CHOICE, log 3). -/
def manifest : Manifest :=
  { magic := 0x4D464E4B, ver := 1, stepping := 0, serial := 0, coreEn := (BitVec.allOnes 144).zeroExtend 192, debugFlags := 1,
    fwKey := 0, podKey := 0, parts := [part0], secure := [], reserved := 0 }
/-- Where the supervisor groups start (R287; the firmware image names it: DESIGN CHOICE 0, log 2). -/
def firmwareEntry : DWord := 0
/-- Where in each firmware reserve context 0's top-level page table stands, which the firmware image places: behind the stripe-set table
and the translation cache (R287, R386; DESIGN CHOICE, log 2). -/
def ctx0Root : Nat := 0x10200000
/-- The bytes of the images that the boot chain verifies beside the manifest (R383), management firmware, supervisor firmware, microcode and
pod configuration, of the signatures and of the keys (DESIGN CHOICE, log 3). -/
opaque bootImage : Nat → List Byte
/-- The device's certificate chain (R385), which stands in flash (DESIGN CHOICE, log 3). -/
opaque certificate : List DWord
/-- What the boot chain of the device that `State.reset` describes has read (DESIGN CHOICE, log 3). Its images place no bytes (DESIGN CHOICE, log 2). -/
def images : BootImages :=
  { manifest, manifestSig := bootImage 5, mgmt := bootImage 1, mgmtSig := bootImage 6, super := bootImage 2, superSig := bootImage 7,
    micro := bootImage 3, microSig := bootImage 8, pod := some { chip := 0, routes := [] }, podImage := bootImage 4, podSig := bootImage 9,
    rootKey := bootImage 10, fwKey := bootImage 11, podKey := bootImage 12, entry := firmwareEntry, ctx0Root, cells := [] }

end Sys2Proof.Config
end

