-- ==== Sys2Proof/Machine/Map.lean ====
section
/-! DEFINITION. Sparse maps as sorted lists of a key and a value: at most one entry for a key, keys rising, and in a map
with a default no entry equal to the default. Registers, predicates, bytes of memory and the tables of the device are such
maps, so equal contents are equal lists. -/
namespace Sys2Proof.Machine

/-- The entry of key k. -/
def aget? {α : Type} (k : Nat) (m : List (Nat × α)) : Option α :=
  match m with
  | [] => none
  | (j, v) :: t => if j = k then some v else aget? k t
/-- The map with v at key k. -/
def aput {α : Type} (k : Nat) (v : α) (m : List (Nat × α)) : List (Nat × α) :=
  match m with
  | [] => [(k, v)]
  | (j, w) :: t => if k < j then (k, v) :: (j, w) :: t else if k = j then (k, v) :: t else (j, w) :: aput k v t
/-- The map without key k. -/
def adel {α : Type} (k : Nat) (m : List (Nat × α)) : List (Nat × α) :=
  match m with
  | [] => []
  | (j, w) :: t => if j = k then adel k t else (j, w) :: adel k t
/-- The value at key k, or the default d. -/
def aval {α : Type} (d : α) (k : Nat) (m : List (Nat × α)) : α := (aget? k m).getD d
/-- The map with v at key k, where the default d stands for no entry. -/
def aset {α : Type} [DecidableEq α] (d : α) (k : Nat) (v : α) (m : List (Nat × α)) : List (Nat × α) :=
  if v = d then adel k m else aput k v m
/-- The map with the entry of key k changed by f, where it exists. -/
def amod {α : Type} (k : Nat) (f : α → α) (m : List (Nat × α)) : List (Nat × α) :=
  match aget? k m with
  | some v => aput k (f v) m
  | none => m
/-- The lowest natural number below n that is no key of the map. -/
def afree {α : Type} (n : Nat) (m : List (Nat × α)) : Option Nat := (List.range n).find? (fun k => (aget? k m).isNone)

/-- Keys strictly rising. -/
abbrev ASorted {α : Type} (m : List (Nat × α)) : Prop := m.Pairwise (fun a b => a.1 < b.1)
/-- The canonical form with default d: keys strictly rising, and no entry equal to d. -/
abbrev AWf {α : Type} [DecidableEq α] (d : α) (m : List (Nat × α)) : Prop := ASorted m ∧ ∀ e ∈ m, e.2 ≠ d

/-- A set of naturals as a rising list: x added. -/
def setAdd (x : Nat) (l : List Nat) : List Nat :=
  match l with
  | [] => [x]
  | y :: t => if x < y then x :: y :: t else if x = y then y :: t else y :: setAdd x t
/-- A set of naturals: x removed. -/
def setDel (x : Nat) (l : List Nat) : List Nat := l.filter (fun y => y != x)

end Sys2Proof.Machine
end

