-- ==== Sys2Proof/Machine/Manifest.lean ====
section
/-! DEFINITION. Bytes of numbers (R2), the device manifest as the bytes that stand in flash (R386), and the digest of an image (R383). -/
namespace Sys2Proof.Machine

/-- Bytes as a natural number, little-endian (R2). -/
def leNat (l : List Byte) : Nat := l.foldr (fun b n => b.toNat + 256 * n) 0
/-- n little-endian bytes of x (R2). -/
def leBytes (x n : Nat) : List Byte := (List.range n).map (fun k => BitVec.ofNat 8 (x / 256 ^ k))

/-- The 32 bytes of a partition record (R386). -/
def partBytes32 (p : PartRecord) : List Byte :=
  leBytes p.sect.toNat 2 ++ leBytes p.stk.toNat 1 ++ leBytes p.world.toNat 1 ++ leBytes p.ports.toNat 2 ++ leBytes p.wdt 2 ++
    leBytes p.reserved 2 ++ leBytes p.fwres 8 ++ leBytes (p.reserved / 2 ^ 16) 14
/-- The 688 bytes of a manifest (R386): the bytes that the rule fixes at 0 are those of 0x2A, and then the records from NPART on. -/
def manifestBytes (m : Manifest) : List Byte :=
  leBytes m.magic.toNat 4 ++ leBytes m.ver 2 ++ leBytes m.stepping 2 ++ leBytes m.serial.toNat 8 ++ leBytes m.coreEn.toNat 24 ++
    leBytes m.parts.length 1 ++ leBytes m.debugFlags.toNat 1 ++ leBytes m.reserved 6 ++ leBytes m.fwKey.toNat 64 ++
    leBytes m.podKey.toNat 64 ++ m.parts.flatMap partBytes32 ++ leBytes (m.reserved / 2 ^ 48) (32 * (8 - m.parts.length)) ++
    (List.range 16).flatMap (fun k => leBytes (m.secure.getD k (0, 0)).1 8 ++ leBytes (m.secure.getD k (0, 0)).2 8)
/-- A measurement register extended with the digest of an image (R383 steps 2 and 3). -/
def extendM (m d : BitVec 512) : BitVec 512 := Config.shake256 (leBytes m.toNat 64 ++ leBytes d.toNat 64)
/-- Whether an image verifies (R383): its signature over its digest, with a key of a digest. -/
def verified (keyDigest : BitVec 512) (key image sig : List Byte) : Bool :=
  Config.shake256 key == keyDigest && Config.fnDsa key (Config.shake256 image) sig
/-- The images that the root key verifies (R383 step 2). -/
def manifestOk (b : BootImages) : Bool := verified Config.rootDigest b.rootKey (manifestBytes b.manifest) b.manifestSig
def mgmtOk (b : BootImages) : Bool := verified Config.rootDigest b.rootKey b.mgmt b.mgmtSig
/-- The images that the firmware key verifies (R383 step 4). -/
def superOk (b : BootImages) : Bool := verified b.manifest.fwKey b.fwKey b.super b.superSig
def microOk (b : BootImages) : Bool := verified b.manifest.fwKey b.fwKey b.micro b.microSig
/-- The pod configuration that the pod key verifies (R386). -/
def podOk (b : BootImages) : Bool := b.pod.isSome && verified b.manifest.podKey b.podKey b.podImage b.podSig
/-- The measurement registers after the boot chain (R383): register 4 where the pod configuration verified. -/
def measured (b : BootImages) (podOk : Bool) : List (Nat × BitVec 512) :=
  let first (image : List Byte) : BitVec 512 := extendM 0 (Config.shake256 image)
  [(0, first (manifestBytes b.manifest)), (1, first b.mgmt), (2, first b.super), (3, first b.micro)] ++
    (if podOk then [(4, first b.podImage)] else [])

end Sys2Proof.Machine
end

