-- ==== Sys2Proof/Machine/State.lean ====
section
/-! DEFINITION. The state of the device as plain data (R8, R11, R12), and the state after reset. Registers, predicates and
bytes are sparse maps with a default, so equal contents are equal data. -/
namespace Sys2Proof.Machine

/-- Who raises it and why the machine cannot go on. Every one of them names an event or a state that the spec does not
bring about, so each is safe: nothing is claimed of what follows. -/
inductive Fault where
  /-- A word's meaning runs while `cur` names no group that lives: raised by `issue`. The step never selects such a group.
  Safe. -/
  | noGroup
  /-- An event names a core, group, block, operation, request or partition that does not exist: raised by the events'
  meanings. The agent of the event never does this. Safe. -/
  | noTarget
  /-- An event's condition in the spec does not hold in the state (an entry that may not land, a grant that the rule
  refuses): raised by the events' meanings. The agent never does this. Safe. -/
  | notNow
  /-- An access at a physical address that R318 maps nowhere: raised by the memory operations. Safe. -/
  | noPhysical
deriving DecidableEq, Repr

/-- Instructions without a meaning. -/
inductive Refusal where
  /-- The instruction is not modelled: raised by its arm of `exec`. Safe. -/
  | notModelled (mnemonic : String)
deriving DecidableEq, Repr

/-- The outcome of a step or of an instruction. -/
abbrev Out (σ : Type) := Host.Outcome σ Fault Refusal

/-- A trap (R7, R295): cause, detail words, lanes, and the unfinished lanes of a MEMORY or WATCH trap. -/
structure Trap where
  cause : Nat
  w0 : Word
  w1 : Word
  w2 : Word
  lanes : Mask
  unfin : Mask
deriving DecidableEq, Repr

/-- A lane-mask stack entry (R73): RM, PM or WM, PPC or HEAD, EPC, and the last 8 bytes (KIND, FLAGS and 6 others). -/
structure StackEntry where
  rm : Mask
  pm : Mask
  pc : DWord
  epc : DWord
  kf : DWord
deriving DecidableEq, Repr

/-- STATE of the group header (R314): a group of a stopped block is stopped (R311), which the block says; a moored group whose
handle PARK has released (R302) takes no entry by itself. -/
inductive RunState where
  | running | ended | moored | released
deriving DecidableEq, Repr

/-- What slot 0 of a group, or a group, waits for, with the operands that decide when the wait ends (R72, R176, R179, R203,
R227, R252 to R254, R275, R298, R305, R314, R160, R308, R336). `again k` is a wait restored from the header's WAIT at swap-in;
`tbwoken r` is a TBWAIT that its barrier has woken, with the reason that its checks then met, 0 for none (R179); `lower` waits for
the code of its word (R346), and `settle` until the core's REDs are performed and the host lines that it stores to are its own (R160, R173,
R183). -/
inductive Wait where
  | none
  | again (kind : Nat)
  | bar (id : Nat)
  | gangbar
  | tbwait (tb : Nat) (parity : Bool)
  | tbwoken (reason : Nat)
  | twait (set : DWord)
  | cwait (seqs : List Nat)
  | regacq (n : Nat)
  | sleep
  | joint (w : DWord)
  | syscallb
  | waitc (gather : Bool) (t : Nat)
  | engineSlot (gather : Bool)
  | undivided
  | splitTop
  | halt
  | posted (ctxid : Nat)
  | drain (blk : Nat)
  | tags (l : List Nat)
  | lower
  | settle
deriving DecidableEq, Repr

/-- The target of a byte: device memory, host memory (with whether the mapping is coherent), or a peer's context (R318, R332). -/
inductive Target where
  | dev (pa : Nat)
  | host (pa : Nat) (coh : Bool)
  | peer (chip : Nat) (ctxid : BitVec 16) (va : DWord)
deriving DecidableEq, Repr

/-- The remote access that a slot's word waits for (R146): the outstanding tags with the key of the part each serves (the
sector of a load, the lane of an atomic), the target to which each part was sent, the parts that have come back with their bytes
and poison, and the parts that failed, each with W0 of its REMOTE trap without the bits that the word adds (R295). -/
structure Pend where
  waiting : List (Nat × Nat)
  sent : List (Nat × Target)
  landed : List (Nat × (List Byte × Bool))
  fails : List (Nat × Nat)
deriving DecidableEq, Repr

/-- What the retry of a trapped word is limited to (R302, R363): the unfinished lanes, the breakpoint that does not stop it again, and
whether watchpoints do not. -/
structure Retry where
  redo : Option Mask
  skipBreak : Option Nat
  skipWatch : Bool
deriving DecidableEq, Repr
/-- No retry. -/
def Retry.none : Retry := { redo := .none, skipBreak := .none, skipWatch := false }

/-- A group (R8, R72, R111, R190, R277, R291, R314): user groups and the supervisor group of a core. `sretry` is what a retry of the word
at SPC is limited to, which an entry has put off (R278, R302). `settle1` says that the word of slot 1 waits as `Wait.settle` does. -/
structure Group where
  core : Nat
  blk : Option Nat
  gid : Nat
  role : Nat
  v : List (Nat × Word)
  s : List (Nat × Word)
  p : List (Nat × Mask)
  vPoison : List (Nat × Mask)
  sPoison : DWord
  allot : Nat
  live : Mask
  pc0 : DWord
  mask0 : Mask
  pc1 : DWord
  mask1 : Mask
  held : BitVec 5
  run1 : Bool
  stack : List StackEntry
  depth : Nat
  spill : Nat
  fpflags : Word
  fpmode : Word
  arithmode : Word
  ccopy : Nat
  cgath : Nat
  icopy : Nat
  igath : Nat
  tmask : DWord
  entrypc : DWord
  spc : DWord
  smask : Mask
  inEntry : Bool
  arr : Bool
  arrWait : Wait
  sdepth : Nat
  state : RunState
  wait : Wait
  wake : DWord
  hint : Bool
  young : Bool
  trap : Trap
  trapVpc : DWord
  trapSlot : Bool
  failrec : List (Nat × Byte)
  parked : Bool
  retry0 : Retry
  retry1 : Retry
  sretry : Retry
  pend0 : Option Pend
  pend1 : Option Pend
  settle1 : Bool
  pos : Option Nat
deriving DecidableEq, Repr

/-- A block barrier (R176): arrivals, the count of the phase, CNT. -/
structure Barrier where
  arrivals : Nat
  e : Nat
  cnt : Bool
deriving DecidableEq, Repr

/-- A mapped stash granule (R138): generic page address and W. -/
structure Granule where
  page : Nat
  w : Bool
deriving DecidableEq, Repr

/-- An engine operation: the restart record of R206, its slot, where it stands (R189 to R191, R204, R208), the parts that
links must bring, and the place of its failure among the device's (R239). `blk` is none for the supervisor's. -/
structure EngineOp where
  id : Nat
  blk : Option Nat
  gather : Bool
  dst : DWord
  src : DWord
  len : Nat
  done : Nat
  kind : Nat
  state : Nat
  tb : Option Nat
  owner : Nat
  xop : BitVec 9
  seq : Nat
  faddr : DWord
  freason : Nat
  fcode : Nat
  coord : List Word
  param : List Word
  slot : Option Nat
  patPoison : Bool
  complete : Bool
  reported : Bool
  pend : Pend
  failAge : Nat
deriving DecidableEq, Repr

/-- A resident block (R8, R307, R313). A filled stash sector holds its physical address and the size in bits of the page that mapped
it (R139). `sysBad` names the groups that trap at their SYSCALLB when an entry has returned to it (R298). `lost` is the core that took a
member of its gang (R316). `behind` is the block of its grid that a displacement makes room for
(R243). -/
structure Block where
  core : Nat
  slot : Nat
  part : Nat
  seq : Nat
  linear : Nat
  ctxid : BitVec 16
  asid : BitVec 16
  recAddr : DWord
  ngroup : Nat
  ntbar : Nat
  localSize : Nat
  stashSize : Nat
  gang : Bool
  age : Nat
  loc : List (Nat × Byte)
  locPoison : List Nat
  stash : List (Nat × Granule)
  stashFilled : List (Nat × (Nat × Nat))
  bars : List (Nat × Barrier)
  sysArrived : List (Nat × Nat)
  sysBad : List Nat
  tbars : List (Nat × DWord)
  gangArrived : Nat
  gangPhase : Bool
  quadR : List (Nat × Nat)
  bins : List (Nat × DWord)
  stopped : Bool
  lost : Option Nat
  behind : Option Nat
deriving DecidableEq, Repr

/-- A role of a launch record (R235). -/
structure Role where
  entry : DWord
  ngrp : Nat
  pgran : Nat
  fgran : Nat
deriving DecidableEq, Repr

/-- A block on its grid's return list (R243): its linear id, record address, the facts that readmission needs,
the children that make it ineligible while every group waits for one, whether CONT must release it, since when it waits, whether WAKE moved
it to the head, and the block that a displaced one stands behind. -/
structure Swapped where
  linear : Nat
  recAddr : DWord
  liveGroups : Nat
  regs : Nat
  need : Nat
  waits : List (List Nat)
  held : Bool
  since : DWord
  woken : Bool
  behind : Option Nat
deriving DecidableEq, Repr

/-- What a group keeps of its words beside its record (R302, R363, R206): the retries of its words, the parts of accesses that have come for a
word that a parked slot will end (R172), the issue numbers of its engine
operations, what it waits for, the number of a SYSCALLB at which it has arrived and whether it is to trap there, and the failures of its
operations by class and number (R239). -/
structure Replay where
  retry0 : Retry
  retry1 : Retry
  sretry : Retry
  pend0 : Option Pend
  pend1 : Option Pend
  icopy : Nat
  igath : Nat
  wait : Wait
  arrWait : Wait
  sys : Option Nat
  sysBad : Bool
  fails : List (Bool × (Nat × Nat))
deriving DecidableEq, Repr

/-- A grid (R235 to R244): its launch record, its progress and its completion, with the places of its DETAIL's and its ENGREC's failures
among the device's, and the tick of its latest admission. -/
structure Grid where
  part : Nat
  seq : Nat
  ctxid : BitVec 16
  asid : BitVec 16
  depth : Nat
  parent : Option (Nat × Nat × Nat)
  collected : Bool
  ord : Bool
  crec : Bool
  roles : List Role
  gang : Nat
  ntbar : Nat
  prio : Nat
  pwr : Nat
  deps : List Nat
  nbx : Nat
  nby : Nat
  nbz : Nat
  localSize : Nat
  stashSize : Nat
  arg : DWord
  craddr : DWord
  fs : List DWord
  claimed : Nat
  returns : List Swapped
  replays : List (Nat × (Nat × Replay))
  retired : Nat
  live : Bool
  killed : Bool
  status : Nat
  nfail : Nat
  detail : DWord
  detailAge : Nat
  engrec : List (Nat × Byte)
  engAge : Nat
  stamp : DWord
deriving DecidableEq, Repr

/-- A mooring entry (R292): a group trap, a moored engine operation or a register stall. -/
structure Moor where
  kind : Nat
  popped : Bool
  order : Nat
  key : Nat
  blk : Option Nat
  seq : Nat
  linear : Nat
  op : Option Nat
deriving DecidableEq, Repr

/-- A notice (R292, R301): swap request, readmission, host reply or error. -/
structure Notice where
  kind : Nat
  popped : Bool
  order : Nat
  slot : Nat
  ctxid : BitVec 16
  info : Word
  seq : Nat
  linear : Nat
  addr : DWord
  blk : Option Nat
deriving DecidableEq, Repr

/-- A permission cache entry with the frame that its TLB entry holds (R324, R325): ASID or global, virtual page, page size in
bits, physical page, the leaf's attributes, and set and granule of a peer-striped page. -/
structure PermEntry where
  ctxid : BitVec 16
  asid : Nat
  glob : Bool
  va : Nat
  bits : Nat
  pa : Nat
  w : Bool
  x : Bool
  u : Bool
  sec : Bool
  c : Bool
  h : Bool
  ra : Bool
  stripe : Option (Nat × Nat)
deriving DecidableEq, Repr

/-- A watchpoint comparator (R360, R361). -/
structure Comparator where
  start : DWord
  len : Nat
  lanes : Mask
  ctl : Word
  asid : BitVec 16
deriving DecidableEq, Repr

/-- A virtual-PC breakpoint (R360, R362). -/
structure Breakpoint where
  pc : DWord
  ctl : Word
deriving DecidableEq, Repr

/-- The resources that the distributor has reserved on a core for a block that SWAPIN will restore (R309). -/
structure Reserve where
  part : Nat
  seq : Nat
  slot : Nat
  entry : Swapped
deriving DecidableEq, Repr

/-- The posted writes of a context on a core that have failed (R186): how many, and the oldest's address, kind and place among the device's
failures. -/
structure Deferred where
  count : Nat
  addr : DWord
  kind : Nat
  age : Nat
deriving DecidableEq, Repr

/-- A core (R11, R289, R292). `l1Poison` names the L1 sectors that came poisoned, and `l1Own` those whose dirty bytes a poisoned store has
written (R147). -/
structure Core where
  part : Nat
  enabled : Bool
  fenced : Bool
  l1 : List (Nat × (Byte × Bool))
  l1Poison : List Nat
  l1Own : List Nat
  ro : List (Nat × Byte)
  roPoison : List Nat
  perm : List PermEntry
  comps : List (Nat × Comparator)
  mq : List (Nat × Moor)
  notices : List (Nat × Notice)
  noticeWait : List Notice
  regq : List (Nat × Nat)
  reserve : List (Nat × Reserve)
  ops : List EngineOp
  opSeq : Nat
  slotq : List (Bool × Nat)
  hold : List (Nat × Nat)
  vacating : Bool
  deferred : List (Nat × Deferred)
  traceBuf : List (Nat × List Byte)
  traceDrop : Nat
  totals : List (Nat × DWord)
  tokens : List (Nat × Nat)
  svIssued : Bool
  admitSeq : Nat
  orderSeq : Nat
  nest : Bool
  svec : DWord
  sepc : DWord
  scause : Nat
  sdetail : Word × Word × Word
  popped : Trap
  poppedVpc : DWord
  poppedSlot : Bool
  ctxbase : DWord
  scale : Nat
deriving DecidableEq, Repr

/-- A pin record of R354. -/
structure Pin where
  asid : BitVec 16
  start : DWord
  len : Nat
deriving DecidableEq, Repr

/-- A granted pre-emption request (R257, R312). -/
structure Preempt where
  id : Nat
  cores : List Nat
  hold : Nat
deriving DecidableEq, Repr

/-- A gang enlistment (R244): grid, cores, tick at which it began. -/
structure Enlist where
  seq : Nat
  cores : List Nat
  since : DWord
deriving DecidableEq, Repr

/-- What an entry of the submission ring that the device has taken still waits for (R336, R343, R371): the record of a load, or requests. -/
inductive Busy where
  | load (ctxid : BitVec 16)
  | inval (tags : List Nat)
deriving DecidableEq, Repr

/-- A partition (R21, R237, R289, R370, R386, R389). -/
structure Partition where
  info : PartRecord
  nextSeq : Nat
  wdDeadline : DWord
  linktmo : Nat
  pins : List Pin
  preempts : List Preempt
  nextReq : Nat
  enlists : List Enlist
  resetting : Bool
  sqbase : DWord
  sqsize : DWord
  sqtail : DWord
  sqhead : DWord
  sqPend : Pend
  sqBusy : Option Busy
  hsqbase : DWord
  hsqsize : DWord
  hsqtail : DWord
  hsqhead : DWord
  trbase : DWord
  trsize : DWord
  trtail : DWord
  grace : DWord
deriving DecidableEq, Repr

/-- A DMAP region (R411), with the numbers of its 64 KiB pages that have been backed (R339 step 3). -/
structure Region where
  part : Nat
  ctxid : BitVec 16
  base : DWord
  len : Nat
  writable : Bool
  backed : List Nat
deriving DecidableEq, Repr

/-- One placement of a loaded object of a context (R343, R348): the object's number and its declared version, 256 x VMAJOR + VMINOR
(R342), the section's range, whether it is code, whether the load is recorded, and with the object's first placement its global
symbols. -/
structure LoadedObject where
  ctxid : BitVec 16
  obj : Nat
  version : Nat
  start : DWord
  len : Nat
  code : Bool
  ok : Bool
  syms : List (List Byte × DWord)
deriving DecidableEq, Repr

/-- A lowered translation unit (R344, R346): its key, with the declared version and the die stepping, the size in bits of the page that
holds it, the words as the lowering read them, and its place in the order in which the units were lowered (R354). The units of the device
stand in the order of their latest use. -/
structure CodeUnit where
  part : Nat
  asid : BitVec 16
  entry : DWord
  version : Nat
  stepping : BitVec 16
  bits : Nat
  words : List DWord
  born : Nat
deriving DecidableEq, Repr

/-- A bound doorbell page (R273, R371): its token, context, and for each endpoint the latched status and failure count. -/
structure Doorbell where
  token : DWord
  ctxid : BitVec 16
  status : List (Nat × Nat)
  fails : List (Nat × Nat)
deriving DecidableEq, Repr

/-- A landing window (R375 to R377). -/
structure Window where
  enabled : Bool
  ctxid : BitVec 16
  base : DWord
  size : Nat
  endpoint : Nat
  psrc : Nat
  anyReq : Bool
  reqId : Nat
  status : Nat
  faults : Nat
  refused : Nat
  performed : Nat
  high : Nat
deriving DecidableEq, Repr

/-- What a link request asks for (R146, R152, R169, R173, R186, R271): bytes for a word or an operation, an atomic at the target, a
posted write, a tether request, bytes that a prefetch brings, or the ownership of a host line that the last-level cache has stored to
(R183). -/
inductive ReqKind where
  | load | atomic | posted | tsend | prefetch | own
deriving DecidableEq, Repr

/-- The tag of a line of the last-level cache (R140, R328), whose physical line is its key: partition, ASID, virtual line, the size in bits of its
page and whether that is global, context, and whether the mapping of a host line is coherent. -/
structure LineTag where
  part : Nat
  asid : Nat
  va : Nat
  bits : Nat
  glob : Bool
  ctxid : BitVec 16
  coh : Bool
deriving DecidableEq, Repr

/-- A RED that its core or the last-level cache performs as soon as its sector has come (R173): the operation, its offset in the sector
and its data; at block scope in L1, through the page's entry. -/
structure RedAct where
  op : AtomOp
  ty : AtomTy
  off : Nat
  data : List Byte
  poison : Bool
  blk : Bool
  entry : PermEntry
  asid : Nat
  sva : Nat
deriving DecidableEq, Repr

/-- A link request that awaits its response (R146, R173, R186, R379): what it serves, where it went, and where the bytes that come are
kept: the L1 sector (R140), the sector of the read-only path (R150), the host line of the last-level cache (R183), whether the line comes
as the device's own (R169). -/
structure Request where
  kind : ReqKind
  core : Nat
  ctxid : BitVec 16
  key : Nat
  target : Target
  port : Option Nat
  addr : DWord
  issued : DWord
  op : Option (Nat × Nat)
  l1 : Option Nat
  ro : Option Nat
  llc : Option LineTag
  own : Bool
  acts : List RedAct
deriving DecidableEq, Repr
/-- The chip to which a request went, none for the host. -/
def Request.chip (r : Request) : Option Nat := match r.target with
  | .peer c _ _ => some c
  | _ => none

/-- A request context that this chip holds for a target chip (R379): the tag of its current use, whose generation is bit 15, whether a
response of that use is still due, and when the last copy of a replayed use was sent. -/
structure LinkCtx where
  tag : Nat
  busy : Bool
  replayed : Option DWord
deriving DecidableEq, Repr

/-- A reply that the firmware awaits, kept by the tag of its message (R310, R339, R410): the block and the group, or its engine operation
by class and SEQ, that it is for, the lane of a forwarded call (32 for a fault on a page), whether the queue has taken the message, and a
reply that came while no entry of the group stood. -/
structure Await where
  part : Nat
  seq : Nat
  linear : Nat
  gid : Nat
  op : Option (Bool × Nat)
  lane : Nat
  body : List Byte
  sent : Bool
  reply : Option (List Byte)
deriving DecidableEq, Repr

/-- A kept response of a request context (R379). -/
structure Kept where
  chip : Nat
  ctx : Nat
  tag : Nat
  status : Nat
  data : List Byte
  since : DWord
deriving DecidableEq, Repr

/-- A record of the last-events record (R367): ring O or E, sequence number, tick, and the bytes of its fields. -/
structure EventRecord where
  ringE : Bool
  seq : Nat
  tick : DWord
  type : Nat
  part : Nat
  core : Nat
  ctxid : BitVec 16
  info : List DWord
deriving DecidableEq, Repr

/-- What the device has sent on its ports (R25): data for the agents outside, held in order. A `dst` is the chip and the
member's context at a peer, and none at the host, whose addresses are PA<50:0> (R318). The 16 bits of a UALink request's tag are the
low bits of `tag` (R379). A read of no bytes follows a posted write to a non-coherent page (R184). -/
inductive Msg where
  /-- A read of host or peer memory (R146). -/
  | read (tag : Nat) (dst : Option (Nat × Nat)) (addr : DWord) (size : Nat)
  /-- A read of a host line that makes it the device's own (R169). -/
  | own (tag : Nat) (addr : DWord)
  /-- A back-invalidate snoop for the host's copy of a sector of device memory (R183). -/
  | backInv (addr : DWord)
  /-- A posted write to host or peer memory (R160). -/
  | write (tag : Nat) (dst : Option (Nat × Nat)) (addr : DWord) (data : List Byte) (poison : Bool)
  /-- An atomic at the host or at a peer (R169, R175). -/
  | atomic (tag : Nat) (dst : Option (Nat × Nat)) (addr : DWord) (op : AtomOp) (ty : AtomTy) (data : List Byte) (poison : Bool)
  /-- A compare and swap at the host or at a peer. -/
  | cas (tag : Nat) (dst : Option (Nat × Nat)) (addr : DWord) (cmp new : List Byte)
  /-- A tether aperture request (R271, R379). -/
  | tether (tag : Nat) (chip : Nat) (ctxid : Nat) (ep : Nat) (sender : Word) (payload : DWord)
  /-- A message placed at an address of the host service queue of a partition (R310, R370). -/
  | hsq (part : Nat) (addr : DWord) (data : List Byte)
  /-- A response to a peer's or requester's access (R333, R375, R379). -/
  | response (chip tag status : Nat) (data : List Byte)
  /-- A response to a host access of the host block, a doorbell, HDM or a snoop (R183, R273, R328, R370). -/
  | host (status : Nat) (value : DWord) (data : List Byte) (poison : Bool)
  /-- STATUS and RESULT of the submission entry at an address of the ring (R371). -/
  | submitted (part : Nat) (addr : DWord) (status : Nat) (value : DWord)
  /-- An interrupt or message to the host or the management interface (R367, R385, R391). -/
  | mgmt (kind : Nat) (data : List DWord)
deriving DecidableEq, Repr

/-- What the host asks of the device beside the events of the table: a pre-emption request and its release (R257), the enabling of tracing
for a context (R364), and reads of the host block (R370), of the configuration space's boot status (R384), of a doorbell page (R273, R373)
and of the peer port's BAR2 (R377), an SPDM request for the capabilities, and the bytes of a
measurement request in the DOE mailbox (R385). -/
inductive HostAct where
  | preempt (part count hold : Nat)
  | release (part id : Nat)
  | trace (part : Nat) (ctxid : BitVec 16) (on : Bool)
  | readBlock (part off : Nat)
  | readConfig
  | readDoorbell (page off size : Nat)
  | readBar2 (off size : Nat)
  | spdmCaps
  | mailbox (bytes : List Byte)
deriving DecidableEq, Repr
/-- What moves next (DESIGN CHOICE, log 7): a cycle of one quarter of one core, an event of the table, what the core supervisor firmware of
a core does next by itself, with the frames that it has free (R310, R339, R355), what the host asks, or an error that a port has corrected
(R380): 0 to 15 are the UALink ports, and 16 is the host port. -/
inductive Move where
  | cycle (core quarter : Nat)
  | event (i : Instr)
  | serve (core : Nat) (frames : List Nat)
  | host (a : HostAct)
  | corrected (port : Nat)
deriving DecidableEq, Repr

/-- The group key and the slot (true for slot 1) that issue. -/
structure Cur where
  key : Nat
  slot1 : Bool
deriving DecidableEq, Repr

/-- The device. `ctxWait` holds the requests to chips whose request contexts are still in use (R379), with the chip and the message;
`aer` counts the correctable errors of each port (R380). `hostOrphans` holds the contexts that a failure of the host port has stopped, with its
tick, until CONT (R382), and `podInstalled` says that the pod configuration has verified (R386).
`mailbox` holds the bytes of the measurement request that the host has put there (R385). -/
structure State where
  tick : DWord
  mem : List Host.Cell
  memPoison : List Nat
  llcHost : List (Nat × (Byte × Bool))
  llcTag : List (Nat × LineTag)
  llcOwned : List Nat
  hostHeld : List Nat
  hostLost : List Nat
  hostOrphans : List (Nat × DWord)
  cores : List (Nat × Core)
  blocks : List (Nat × Block)
  groups : List (Nat × Group)
  grids : List (Nat × Grid)
  parts : List (Nat × Partition)
  nextBlk : Nat
  regions : List Region
  objects : List LoadedObject
  units : List CodeUnit
  exhausted : List Nat
  breakpoints : List (Nat × Breakpoint)
  traceOn : List Nat
  eventLog : List EventRecord
  eventSeq : Nat
  doorbells : List (Nat × Doorbell)
  windows : List (Nat × Window)
  chip : Nat
  routes : List (Nat × BitVec 16)
  portsUp : BitVec 16
  requests : List (Nat × Request)
  nextTag : Nat
  linkCtxs : List (Nat × LinkCtx)
  ctxWait : List (Nat × (Nat × Option Msg))
  kept : List Kept
  tagUses : List (Nat × Nat)
  aer : List (Nat × Nat)
  podInstalled : Bool
  hostUp : Bool
  hostCxl : Bool
  atomicOpEn : Bool
  portDownTick : DWord
  awaits : List (Nat × Await)
  nextAwait : Nat
  unsent : List (Nat × List Byte)
  ballast : List (Nat × (Nat × Nat))
  measure : List (Nat × BitVec 512)
  mailbox : List Byte
  flash : BootImages
  booted : Bool
  bootFail : Option Nat
  debugArmed : List (DWord × Option Nat)
  debugStopped : List (Option Nat)
  powerCap : Nat
  clockMHz : Nat
  throttled : List Nat
  out : List Msg
  agenda : List Move
  turn : Nat
  cur : Cur
  freeCtr : Nat
  failSeq : Nat
deriving DecidableEq, Repr

/-- The canonical form of memory (DESIGN CHOICE, log 1): addresses strictly rising, no entry 0, which an unlisted address reads as. -/
abbrev Memory.wf (m : List Host.Cell) : Prop := AWf (0 : Byte) m

/-- No trap: the trap fields of a group that has not trapped (R291). -/
def Trap.none : Trap := { cause := 0, w0 := 0, w1 := 0, w2 := 0, lanes := 0, unfin := 0 }

/-- A group in which every register reads 0, unpoisoned, the stack is empty and slot 1 is free (R238). -/
def Group.fresh (core : Nat) (blk : Option Nat) (gid role allot : Nat) (mask : Mask) (pc : DWord) : Group :=
  { core, blk, gid, role, v := [], s := [], p := [], vPoison := [], sPoison := 0, allot, live := mask, pc0 := pc, mask0 := mask,
    pc1 := 0, mask1 := 0, held := 0, run1 := false, stack := [], depth := 0, spill := 0, fpflags := 0, fpmode := 0,
    arithmode := 0, ccopy := 0, cgath := 0, icopy := 0, igath := 0, tmask := 0, entrypc := 0, spc := 0, smask := 0,
    inEntry := false, arr := false, arrWait := .none, sdepth := 0, state := .running, wait := .none, wake := 0, hint := false, young := false,
    trap := Trap.none, trapVpc := 0, trapSlot := false, failrec := [], parked := false, retry0 := Retry.none,
    retry1 := Retry.none, sretry := Retry.none, pend0 := none, pend1 := none, settle1 := false, pos := none }

/-- A core after reset (R289, R245). -/
def Core.fresh (part : Nat) (enabled : Bool) : Core :=
  { part, enabled, fenced := false, l1 := [], l1Poison := [], l1Own := [], ro := [], roPoison := [], perm := [], comps := [], mq := [],
    notices := [], noticeWait := [], regq := [], reserve := [], ops := [], opSeq := 0, slotq := [], hold := [], vacating := false, deferred := [], traceBuf := [], traceDrop := 0, totals := [],
    tokens := [], svIssued := false, admitSeq := 0, orderSeq := 0, nest := false, svec := 0, sepc := 0, scause := 0,
    sdetail := (0, 0, 0), popped := Trap.none, poppedVpc := 0, poppedSlot := false, ctxbase := 0, scale := 4 }

/-- A partition after reset (R237, R289, R370, R389). -/
def Partition.fresh (info : PartRecord) (tick : DWord) : Partition :=
  { info, nextSeq := 1, wdDeadline := tick + BitVec.ofNat 64 (info.wdt * 1000000000), linktmo := 100, pins := [],
    preempts := [], nextReq := 1, enlists := [], resetting := false, sqbase := 0, sqsize := 0, sqtail := 0, sqhead := 0, sqPend := { waiting := [], sent := [], landed := [], fails := [] }, sqBusy := none,
    hsqbase := 0, hsqsize := 0, hsqtail := 0, hsqhead := 0, trbase := 0, trsize := 0, trtail := 0, grace := 120 }

/-- The partition that owns the section of a core (R14, R386); none where no partition record names it. -/
def partOfCore (m : Manifest) (c : Nat) : Option Nat :=
  (List.range m.parts.length).find? (fun p => (m.parts.getD p Config.noPart).sect.getLsbD (c / 12))
/-- Whether the boot chain releases a core: the manifest enables it and gives its section to a partition. -/
def released (m : Manifest) (c : Nat) : Bool := m.coreEn.getLsbD c && (partOfCore m c).isSome
/-- The state that the boot chain of R383 leaves: every released core has its supervisor group at the entry that the image header
names, memory holds the bytes that the images place, and a pod configuration that does not verify leaves the UALink ports down. -/
def State.bootState (tick : DWord) (b : BootImages) (podOk : Bool) : State :=
  let m := b.manifest
  let pod := if podOk then b.pod else none
  { tick, mem := b.cells.foldl (fun l e => aset 0 e.1 e.2 l) [], memPoison := [], llcHost := [], llcTag := [], llcOwned := [], hostHeld := [], hostLost := [], hostOrphans := [],
    cores := (List.range 144).map (fun c => (c, Core.fresh ((partOfCore m c).getD 8) (released m c))),
    blocks := [],
    groups := ((List.range 144).filter (released m)).map (fun c => (c, Group.fresh c none 0 0 64 1 b.entry)),
    grids := [],
    parts := (List.range m.parts.length).map (fun p => (p, Partition.fresh (m.parts.getD p Config.noPart) tick)),
    nextBlk := 0, regions := [], objects := [], units := [], exhausted := [], breakpoints := [], traceOn := [],
    eventLog := [], eventSeq := 0, doorbells := [], windows := [], chip := (pod.map PodConfig.chip).getD 0,
    routes := (pod.map PodConfig.routes).getD [], portsUp := if pod.isSome then BitVec.allOnes 16 else 0,
    requests := [], nextTag := 0, linkCtxs := [], ctxWait := [], kept := [], tagUses := [], aer := [], podInstalled := pod.isSome, hostUp := true, hostCxl := true, atomicOpEn := true,
    portDownTick := 0, awaits := [], nextAwait := 0, unsent := [], ballast := [], measure := measured b podOk, mailbox := [], flash := b, booted := true, bootFail := none,
    debugArmed := [], debugStopped := [], powerCap := 2000, clockMHz := 2250, throttled := [], out := [],
    agenda := [], turn := 0, cur := { key := 0, slot1 := false }, freeCtr := 0, failSeq := 0 }

/-- The machine right after reset: the boot chain has verified every image and released every core of the default manifest (DESIGN CHOICE, log 3), each supervisor
group stands at the firmware entry with registers 0 (DESIGN CHOICE, log 2), and memory lists nothing (DESIGN CHOICE, log 1). -/
def State.reset : State := State.bootState 0 Config.images true

end Sys2Proof.Machine
end

