-- ==== Sys2Proof/Machine/Regs.lean ====
section
/-! DEFINITION. The shared operations on registers, predicates and poison of a group, on the state's parts, and on the mooring
queue and notice list (R292). -/
namespace Sys2Proof.Machine

/-- How a word stops short of its commit: a trap without effect, a trap after some lanes were performed (R6), a wait at a
commit boundary, or a machine fault. -/
inductive Halt where
  | trap (t : Trap)
  | part (s : State) (t : Trap)
  | wait (s : State) (w : Wait)
  | fault (f : Fault)
deriving DecidableEq, Repr
/-- The result of a word's operation. -/
abbrev Res (α : Type) := Except Halt α

/-- A trap without detail words beyond W0. -/
def trap0 (cause : Nat) (w0 : Word) (lanes : Mask) : Trap := { cause, w0, w1 := 0, w2 := 0, lanes, unfin := 0 }
/-- A trap whose W1:W2 holds a 64-bit value (R295). -/
def trap64 (cause : Nat) (w0 : Word) (x : DWord) (lanes : Mask) : Trap :=
  { cause, w0, w1 := x.truncate 32, w2 := x.extractLsb' 32 32, lanes, unfin := 0 }

/-- The low word of a 64-bit value. -/
def lo32 (x : DWord) : Word := x.extractLsb' 0 32
/-- The high word of a 64-bit value. -/
def hi32 (x : DWord) : Word := x.extractLsb' 32 32
/-- hi : lo. -/
def pair (lo hi : Word) : DWord := hi ++ lo
/-- The 32 lanes. -/
def lanes32 : List Nat := List.range 32
/-- The lanes of a mask, ascending. -/
def Mask.toLanes (m : Mask) : List Nat := lanes32.filter (fun l => m.getLsbD l)
/-- The mask of the lanes for which f holds. -/
def maskOf (f : Nat → Bool) : Mask := lanes32.foldl (fun m l => if f l then m ||| (1#32 <<< l) else m) 0
/-- The lowest lane of a mask, 0 where there is none. -/
def lowLane (m : Mask) : Nat := (Mask.toLanes m).headD 0

/-! ## Registers -/

/-- The key of lane register i of lane L. -/
def vkey (i l : Nat) : Nat := 32 * i + l
/-- V[L][i]. -/
def Group.getV (g : Group) (i l : Nat) : Word := aval 0 (vkey i l) g.v
/-- V[L][i] ← x. -/
def Group.setV (g : Group) (i l : Nat) (x : Word) : Group := { g with v := aset 0 (vkey i l) x g.v }
/-- S[i]. -/
def Group.getS (g : Group) (i : Nat) : Word := aval 0 i g.s
/-- S[i] ← x, with its poison. -/
def Group.setS (g : Group) (i : Nat) (x : Word) (poison : Bool) : Group :=
  { g with s := aset 0 i x g.s, sPoison := if poison then g.sPoison ||| (1#64 <<< i) else g.sPoison &&& ~~~(1#64 <<< i) }
/-- S[i]:S[i+1]. -/
def Group.getS64 (g : Group) (i : Nat) : DWord := pair (g.getS i) (g.getS (i + 1))
/-- S[i]:S[i+1] ← x. -/
def Group.setS64 (g : Group) (i : Nat) (x : DWord) (poison : Bool) : Group :=
  (g.setS i (lo32 x) poison).setS (i + 1) (hi32 x) poison
/-- P[L][i] over the lanes; p7 is true (R30). -/
def Group.getP (g : Group) (i : Nat) : Mask := if i = 7 then BitVec.allOnes 32 else aval 0 i g.p
/-- P[L][i] ← x in the lanes of m; a write to p7 is discarded (R30). -/
def Group.setP (g : Group) (i : Nat) (m x : Mask) : Group :=
  if i = 7 then g else { g with p := aset 0 i ((aval 0 i g.p &&& ~~~m) ||| (x &&& m)) g.p }
/-- The lanes in which lane register i is poisoned (R94). -/
def Group.poisonV (g : Group) (i : Nat) : Mask := aval 0 i g.vPoison
/-- The poison of lane register i in the lanes of m. -/
def Group.setPoisonV (g : Group) (i : Nat) (m x : Mask) : Group :=
  { g with vPoison := aset 0 i ((aval 0 i g.vPoison &&& ~~~m) ||| (x &&& m)) g.vPoison }
/-- Whether uniform register i is poisoned. -/
def Group.poisonS (g : Group) (i : Nat) : Bool := g.sPoison.getLsbD i
/-- Whether any of n uniform registers from i is poisoned. -/
def Group.poisonSRun (g : Group) (i n : Nat) : Bool := (List.range n).any (fun k => g.poisonS (i + k))
/-- Lane register i ← f in the lanes of m, with poison x. -/
def Group.writeV (g : Group) (i : Nat) (m x : Mask) (f : Nat → Word) : Group :=
  ((Mask.toLanes m).foldl (fun h l => h.setV i l (f l)) g).setPoisonV i m x
/-- The current mask of a slot (R72). -/
def Group.mask (g : Group) (slot1 : Bool) : Mask := if slot1 then g.mask1 else g.mask0
/-- The PC of a slot. -/
def Group.pc (g : Group) (slot1 : Bool) : DWord := if slot1 then g.pc1 else g.pc0
/-- The slot's PC ← x. -/
def Group.setPc (g : Group) (slot1 : Bool) (x : DWord) : Group := if slot1 then { g with pc1 := x } else { g with pc0 := x }
/-- The slot's mask ← m. -/
def Group.setMask (g : Group) (slot1 : Bool) (m : Mask) : Group :=
  if slot1 then { g with mask1 := m } else { g with mask0 := m }
/-- What the retry of the slot's word is limited to (R302, R363). -/
def Group.retry (g : Group) (slot1 : Bool) : Retry := if slot1 then g.retry1 else g.retry0
/-- The retry of the slot's word becomes r. -/
def Group.setRetry (g : Group) (slot1 : Bool) (r : Retry) : Group := if slot1 then { g with retry1 := r } else { g with retry0 := r }
/-- The unfinished lanes that a retried word is limited to (R302). -/
def Group.redo (g : Group) (slot1 : Bool) : Option Mask := (g.retry slot1).redo
/-- The breakpoint that does not stop the slot's word again (R363). -/
def Group.skipBreak (g : Group) (slot1 : Bool) : Option Nat := (g.retry slot1).skipBreak
/-- Whether the slot's word is exempt from watchpoints (R363). -/
def Group.skipWatch (g : Group) (slot1 : Bool) : Bool := (g.retry slot1).skipWatch
/-- The slot's word is limited to no lanes any more. -/
def Group.endRedo (g : Group) (slot1 : Bool) : Group := g.setRetry slot1 { g.retry slot1 with redo := none }
/-- Flags raised by a word of the slot: ORed into FPFLAGS, or into slot 1's held flags (R82, R112). -/
def Group.orFlags (g : Group) (slot1 : Bool) (f : BitVec 5) : Group :=
  if slot1 then { g with held := g.held ||| f } else { g with fpflags := g.fpflags ||| f.zeroExtend 32 }
/-- The supervisor group (R22). -/
def Group.isSup (g : Group) : Bool := g.blk.isNone
/-- The group is divided (R82). -/
def Group.divided (g : Group) : Bool := g.run1
/-- The lanes of the slot for which the guard holds (R5, R31), limited to the unfinished lanes of a retried word. -/
def Group.active (g : Group) (slot1 : Bool) (pg : Nat) (pn : Bool) : Mask :=
  let p := g.getP pg
  let m := g.mask slot1 &&& (if pn then ~~~p else p)
  match g.redo slot1 with
  | none => m
  | some r => m &&& r

/-! ## Parts of the state -/

/-- The core with number c; one outside the device reads as a disabled core of no partition. -/
def State.core (s : State) (c : Nat) : Core := aval (Core.fresh 8 false) c s.cores
/-- The core with number c changed by f. -/
def State.modCore (s : State) (c : Nat) (f : Core → Core) : State := { s with cores := amod c f s.cores }
/-- The group with key k. -/
def State.group? (s : State) (k : Nat) : Option Group := aget? k s.groups
/-- The group with key k becomes g. -/
def State.setGroup (s : State) (k : Nat) (g : Group) : State := { s with groups := aput k g s.groups }
/-- The group with key k changed by f. -/
def State.modGroup (s : State) (k : Nat) (f : Group → Group) : State := { s with groups := amod k f s.groups }
/-- The block with number b changed by f. -/
def State.modBlock (s : State) (b : Nat) (f : Block → Block) : State := { s with blocks := amod b f s.blocks }
/-- The key of group gid of block b. -/
def groupKey (b gid : Nat) : Nat := 256 + 32 * b + gid
/-- The key of a grid: grid sequence numbers are per partition (R237). -/
def gridKey (part seq : Nat) : Nat := 8 * seq + part
/-- The grid of a block. -/
def State.gridOf (s : State) (b : Block) : Option Grid := aget? (gridKey b.part b.seq) s.grids
/-- The block of a group. -/
def State.blockOf (s : State) (g : Group) : Option Block := g.blk.bind (fun b => aget? b s.blocks)
/-- The grid changed by f. -/
def State.modGrid (s : State) (part seq : Nat) (f : Grid → Grid) : State :=
  { s with grids := amod (gridKey part seq) f s.grids }
/-- The partition with number p. -/
def State.part (s : State) (p : Nat) : Partition := aval (Partition.fresh Config.noPart 0) p s.parts
/-- The partition changed by f. -/
def State.modPart (s : State) (p : Nat) (f : Partition → Partition) : State := { s with parts := amod p f s.parts }
/-- The keys of the groups of block b that have not ended. -/
def State.liveGroups (s : State) (b : Nat) : List Nat :=
  (s.groups.filter (fun e => e.2.blk == some b && e.2.state != .ended)).map Prod.fst
/-- The numbers of the blocks resident on core c. -/
def State.blocksOn (s : State) (c : Nat) : List Nat := (s.blocks.filter (fun e => e.2.core == c)).map Prod.fst
/-- The healthy cores of partition p, ascending (R14). -/
def State.healthy (s : State) (p : Nat) : List Nat :=
  (s.cores.filter (fun e => e.2.part == p && e.2.enabled && !e.2.fenced)).map Prod.fst
/-- The core whose context table the shared units use for a partition: the lowest healthy one; where all are fenced, the lowest that the
manifest enables (DEDUCED, log 50). -/
def State.tableCore (s : State) (p : Nat) : Option Nat :=
  (s.healthy p).head?.or ((s.cores.find? (fun e => e.2.part == p && e.2.enabled)).map Prod.fst)
/-- Whether a debug stop covers a partition (R358). -/
def State.gatedPart (s : State) (part : Nat) : Bool := s.debugStopped.any (fun p => p.all (fun x => x == part))
/-- Whether a debug stop covers a core (R358). -/
def State.gated (s : State) (c : Nat) : Bool := s.gatedPart (s.core c).part
/-- A value of the free counter is used up (DESIGN CHOICE, log 5). -/
def State.takeFree (s : State) (n : Nat) : State := { s with freeCtr := s.freeCtr + n }
/-- The number of a message's request. -/
def Msg.tag? (m : Msg) : Option Nat :=
  match m with
  | .read t _ _ _ => some t
  | .own t _ => some t
  | .write t _ _ _ _ => some t
  | .atomic t _ _ _ _ _ _ => some t
  | .cas t _ _ _ _ => some t
  | .tether t _ _ _ _ _ => some t
  | _ => none
/-- A message leaves the device (DESIGN CHOICE, log 8), or waits for its request context (R379). -/
def State.send (s : State) (m : Msg) : State :=
  let waits := m.tag?.bind (fun t => (aget? t s.ctxWait).map (fun x => (t, x.1)))
  { s with
    out := if waits.isSome then s.out else s.out ++ [m],
    ctxWait := match waits with
      | some (t, chip) => aput t (chip, some m) s.ctxWait
      | none => s.ctxWait }
/-- Whether the management firmware answers messages: its boot chain has ended, and the host port that carries them is up (R385). -/
def State.managementUp (s : State) : Bool := s.booted && s.hostUp
/-- A record enters the last-events record (R367): each ring keeps its newest 1,024. -/
def State.logEvent (s : State) (ringE : Bool) (type part core : Nat) (ctxid : BitVec 16) (info : List DWord) : State :=
  let r : EventRecord := { ringE, seq := s.eventSeq, tick := s.tick, type, part, core, ctxid, info }
  let keep := s.eventLog ++ [r]
  let full := (keep.filter (fun e => e.ringE == ringE)).length > 1024
  { s with eventSeq := s.eventSeq + 1,
           eventLog := if full then keep.eraseP (fun e => e.ringE == ringE) else keep }

/-! ## The mooring queue and the notice list (R292) -/

/-- An entry takes a free place of the mooring queue; false where none is free. -/
def State.postMoor (s : State) (c : Nat) (m : Moor) : State × Bool :=
  let k := s.core c
  match afree 128 k.mq with
  | some place =>
    (s.modCore c (fun k => { k with mq := aput place { m with order := k.orderSeq } k.mq, orderSeq := k.orderSeq + 1 }), true)
  | none => (s, false)
/-- A notice takes a free place of the notice list (places 128 to 159), or waits at its sender (R292). -/
def State.postNotice (s : State) (c : Nat) (n : Notice) : State :=
  let k := s.core c
  match afree 32 k.notices with
  | some place =>
    s.modCore c (fun k =>
      { k with notices := aput place { n with order := k.orderSeq } k.notices, orderSeq := k.orderSeq + 1 })
  | none => s.modCore c (fun k => { k with noticeWait := k.noticeWait ++ [n] })
/-- The KIND 1 entry of a parked group (R291, R292). -/
def State.groupMoor (s : State) (key : Nat) (g : Group) : Moor :=
  let b := s.blockOf g
  { kind := 1, popped := false, order := 0, key, blk := g.blk, seq := (b.map Block.seq).getD 0,
    linear := (b.map Block.linear).getD 0, op := none }
/-- Whether a mooring entry stands for the group. -/
def State.hasMoor (s : State) (c key : Nat) : Bool := (s.core c).mq.any (fun e => e.2.kind == 1 && e.2.key == key)
/-- Whether a mooring entry stands for an engine operation. -/
def State.hasOpMoor (s : State) (c id : Nat) : Bool := (s.core c).mq.any (fun e => e.2.kind == 2 && e.2.op == some id)
/-- The group that issued an engine operation of a core. -/
def opKey (c : Nat) (o : EngineOp) : Nat := match o.blk with
  | some b => groupKey b o.owner
  | none => c
/-- The KIND 2 entry of a moored engine operation (R207, R292). -/
def State.opMoor (s : State) (c : Nat) (o : EngineOp) : Moor :=
  let b := o.blk.bind (fun b => aget? b s.blocks)
  { kind := 2, popped := false, order := 0, key := opKey c o, blk := o.blk, seq := (b.map Block.seq).getD 0,
    linear := (b.map Block.linear).getD 0, op := some o.id }
/-- Groups that stall for want of an entry take the places that have come free, lowest key first (R291), then moored
operations that stall (R207). -/
def State.drainMoor (s : State) (c : Nat) : State :=
  let s := s.groups.foldl (fun s e =>
    if e.2.core == c && e.2.parked && e.2.state == .moored && !e.2.isSup && !s.hasMoor c e.1 then
      (s.postMoor c (s.groupMoor e.1 e.2)).1
    else s) s
  (s.core c).ops.foldl (fun s o => if o.state == 2 && !s.hasOpMoor c o.id then (s.postMoor c (s.opMoor c o)).1 else s) s
/-- Notices that wait at their senders take the places that have come free (R292), the first n of them at most. -/
def State.drainNotices (s : State) (c n : Nat) : State :=
  match n with
  | 0 => s
  | n + 1 => match (s.core c).noticeWait, afree 32 (s.core c).notices with
    | x :: t, some _ => ((s.modCore c (fun k => { k with noticeWait := t })).postNotice c x).drainNotices c n
    | _, _ => s
/-- A handle is freed (R302): the place comes free, and what waits for one takes it. -/
def State.freeHandle (s : State) (c h : Nat) : State :=
  if h < 128 then (s.modCore c (fun k => { k with mq := adel h k.mq })).drainMoor c
  else (s.modCore c (fun k => { k with notices := adel (h - 128) k.notices })).drainNotices c 32

end Sys2Proof.Machine
end

