-- ==== Sys2Proof/Machine/Translate.lean ====
section
/-! DEFINITION. Physical memory at the point of coherence (R318, R322), page walks (R319 to R321), contexts (R306), the
permission cache (R143, R324, R325) and what an address reaches (R332). -/
namespace Sys2Proof.Machine

/-! ## Physical memory -/

/-- Device memory ends here (R318). -/
def hbmEnd : Nat := 0x6000000000
/-- The host window starts here (R318). -/
def hostBase : Nat := 0x8000000000000
/-- The stack of a device-memory address (R318). -/
def stackOf (pa : Nat) : Nat := pa / 0xC00000000
/-- A byte of device memory at the point of coherence; a byte that nothing has written reads 0 (DESIGN CHOICE, log 1). -/
def State.readPhys (s : State) (pa : Nat) : Byte := aval 0 pa s.mem
/-- n bytes from pa. -/
def State.readPhysN (s : State) (pa n : Nat) : List Byte := (List.range n).map (fun k => s.readPhys (pa + k))
/-- Whether a byte of [pa, pa + n) lies in a poisoned sector (R147). -/
def State.physPoison (s : State) (pa n : Nat) : Bool := s.memPoison.any (fun q => pa / 64 ≤ q && q ≤ (pa + n - 1) / 64 && n != 0)
/-- A sector of device memory that the host holds is about to change: a back-invalidate snoop takes the host's copy (R183). -/
def State.backInvalidate (s : State) (pa : Nat) : State :=
  if s.hostHeld.contains (pa / 64) then
    { s with hostHeld := setDel (pa / 64) s.hostHeld, out := s.out ++ [.backInv (BitVec.ofNat 64 (pa / 64 * 64))] }
  else s
/-- A byte of device memory written. -/
def State.writePhys (s : State) (pa : Nat) (b : Byte) : State := { s.backInvalidate pa with mem := aset 0 pa b s.mem }
/-- The sectors that [pa, pa + n) touches. -/
def sectorsOf (pa n : Nat) : List Nat := if n = 0 then [] else (List.range ((pa + n - 1) / 64 - pa / 64 + 1)).map (· + pa / 64)
/-- The poison of sectors after one write of bytes (R147): a poisoned write poisons each sector it touches, and a clean one
clears those that it covers whole. `whole` says which sectors the write's byte mask covers. -/
def poisonAfter (old : List Nat) (sectors : List Nat) (poison : Bool) (whole : Nat → Bool) : List Nat :=
  sectors.foldl (fun p q => if poison then setAdd q p else if whole q then setDel q p else p) old
/-- Bytes written to device memory as one write (R147). -/
def State.writePhysN (s : State) (pa : Nat) (bytes : List Byte) (poison : Bool) : State :=
  let n := bytes.length
  let s1 := (List.range n).foldl (fun s k => s.writePhys (pa + k) (bytes.getD k 0)) s
  { s1 with memPoison := poisonAfter s1.memPoison (sectorsOf pa n) poison (fun q => pa ≤ 64 * q && 64 * q + 64 ≤ pa + n) }
/-- The value of n bytes at pa. -/
def State.physNat (s : State) (pa n : Nat) : Nat := leNat (s.readPhysN pa n)

/-- Whether a device-memory address lies in a stack of partition p (R21). -/
def State.inStacks (s : State) (p pa : Nat) : Bool := pa < hbmEnd && (s.part p).info.stk.getLsbD (stackOf pa)
/-- Whether [pa, pa + n) meets a partition's firmware reserve of 512 MiB (R386). -/
def State.meetsReserve (s : State) (pa n : Nat) : Bool :=
  s.parts.any (fun e => e.2.info.fwres < pa + n && pa < e.2.info.fwres + 0x20000000)
/-- Whether an address is secure: it lies in a secure region of the manifest (R388). -/
def State.secureFrame (s : State) (pa : Nat) : Bool := s.flash.manifest.secure.any (fun r => r.1 ≤ pa && pa < r.1 + r.2)
/-- Whether the page [pa, pa + n) may have the S bit given (R321 item 5): a page with S = 1 lies whole in a secure region, and one with
S = 0 meets none; a region of size 0 is unused (R386). -/
def State.worldOk (s : State) (pa n : Nat) (sec : Bool) : Bool :=
  if sec then s.flash.manifest.secure.any (fun r => r.1 ≤ pa && pa + n ≤ r.1 + r.2)
  else !s.flash.manifest.secure.any (fun r => r.2 != 0 && r.1 < pa + n && pa < r.1 + r.2)

/-! ## Walks -/

/-- Fault kinds (R144, R327). -/
def kNONCANON : Nat := 1
def kNOTPRESENT : Nat := 2
def kWRITE : Nat := 3
def kUSER : Nat := 4
def kWORLD : Nat := 5
def kSCRBOUND : Nat := 6
def kSTASHUNMAP : Nat := 7
def kSTASHRO : Nat := 8
def kSTASHTARGET : Nat := 9
def kNOEXEC : Nat := 10
def kBADPTE : Nat := 11
def kATOMIC : Nat := 12
def kSTRIPE : Nat := 13
def kPTEMEM : Nat := 14
def kNOREMOTE : Nat := 15

/-- A 64-bit address is canonical (R136). -/
def canonical (va : DWord) : Bool := va.extractLsb' 56 8 == 0 || va.extractLsb' 56 8 == 0xFF
/-- The 57-bit address that tables and caches are indexed by. -/
def va57 (va : DWord) : Nat := va.toNat % 2 ^ 57
/-- The canonical address of a 57-bit address. -/
def canon57 (va : Nat) : DWord := (BitVec.ofNat 57 va).signExtend 64
/-- A field of a page-table entry. -/
def pte (e lo n : Nat) : Nat := e / 2 ^ lo % 2 ^ n
/-- The size in bits of a leaf under PS (R320). -/
def leafBits (ps : Nat) : Nat := [12, 16, 21, 30].getD ps 12
/-- The permission entry of a leaf that passes R321, or its fault kind. `fw` lets context 0 map the firmware reserve, in
which the supervisor images stand (R386; DEDUCED, log 16). The tests of FRAME hold for every leaf; item 5 has nothing to test where
PSTR = 1, and a 64 KiB leaf's GRANULE counts from the page's own start (DEDUCED, log 62). -/
def State.leaf (s : State) (p : Nat) (ctxid : BitVec 16) (asid va lvl e : Nat) (fw : Bool) : Except Nat PermEntry :=
  let ps := pte e 10 2
  let bits := leafBits ps
  let frame := pte e 12 40 * 4096
  let pstr := pte e 9 1 == 1
  let allowed := (lvl == 0 && ps ≤ 1) || (lvl == 1 && ps == 2) || (lvl == 2 && ps == 3)
  let base := frame / 2 ^ bits * 2 ^ bits
  if pte e 52 8 != 0 || !allowed then .error kBADPTE
  else if (ps == 2 && pte e 12 9 != 0) || (ps == 3 && pte e 12 18 != 0) || (ps == 1 && pte e 12 4 != va / 4096 % 16) then .error kBADPTE
  else if pstr && pte e 3 1 == 1 then .error kBADPTE
  else if !pstr && ((!s.inStacks p frame && frame < hostBase) || (s.meetsReserve base (2 ^ bits) && !fw)) then .error kBADPTE
  else if !pstr && !s.worldOk base (2 ^ bits) (pte e 6 1 == 1) then .error kWORLD
  else .ok
    { ctxid, asid, glob := pte e 5 1 == 1, va := va / 2 ^ bits * 2 ^ bits, bits,
      pa := if pstr then 0 else base, w := pte e 2 1 == 1, x := pte e 3 1 == 1, u := pte e 4 1 == 1,
      sec := pte e 6 1 == 1, c := pte e 7 1 == 1, h := pte e 8 1 == 1, ra := pte e 1 1 == 1,
      stripe := if pstr then some (pte e 42 10, pte e 12 30 / 2 ^ (bits - 12) * 2 ^ (bits - 12)) else none }
/-- A walk from a table at level lvl (R319, R321). -/
def State.walkFrom (s : State) (p : Nat) (ctxid : BitVec 16) (asid va : Nat) (fw : Bool) (lvl table : Nat) : Except Nat PermEntry :=
  let pa := table + 8 * (va / 2 ^ (12 + 9 * lvl) % 512)
  let e := s.physNat pa 8
  if !s.inStacks p table || s.physPoison pa 8 then .error kPTEMEM
  else if e % 2 = 0 then .error kNOTPRESENT
  else match lvl with
    | 0 => s.leaf p ctxid asid va 0 e fw
    | l + 1 =>
      if pte e 10 2 != 0 then s.leaf p ctxid asid va (l + 1) e fw
      else if pte e 52 8 != 0 || pte e 1 9 != 0 || !s.inStacks p (pte e 12 40 * 4096) then .error kBADPTE
      else s.walkFrom p ctxid asid va fw l (pte e 12 40 * 4096)
/-- A walk of a context's tables from PTROOT (R319). -/
def State.walk (s : State) (p : Nat) (ctxid : BitVec 16) (asid root va : Nat) (fw : Bool) : Except Nat PermEntry :=
  s.walkFrom p ctxid asid va fw 4 root

/-- The present leaf that ends a walk of an address, whatever R321 says of it; none where a pointer entry is refused first. -/
def State.rawLeaf (s : State) (p va lvl table : Nat) : Option Nat :=
  let e := s.physNat (table + 8 * (va / 2 ^ (12 + 9 * lvl) % 512)) 8
  if e % 2 = 0 then none
  else match lvl with
    | 0 => some e
    | l + 1 =>
      if pte e 10 2 != 0 then some e
      else if pte e 52 8 != 0 || pte e 1 9 != 0 || !s.inStacks p (pte e 12 40 * 4096) then none else s.rawLeaf p va l (pte e 12 40 * 4096)

/-! ## Context 0 -/

/-- Context 0's top-level table in a partition (R287; DESIGN CHOICE, log 2). -/
def State.root0 (s : State) (p : Nat) : Nat := (s.part p).info.fwres + s.flash.ctx0Root
/-- The physical address of a context 0 address of the partition's firmware (R287). -/
def State.ctx0Addr (s : State) (p : Nat) (va : DWord) (write : Bool) : Except Nat Nat :=
  if !canonical va then .error kNONCANON
  else match s.walk p 0 0 (s.root0 p) (va57 va) true with
    | .error k => .error k
    | .ok e =>
      if e.stripe.isSome || hbmEnd ≤ e.pa then .error kBADPTE
      else if write && !e.w then .error kWRITE
      else .ok (e.pa + va57 va % 2 ^ e.bits)
/-- The parts of [va, va + n) that lie in one 4 KiB page each: address and length. -/
def pageSpans (va : DWord) (n : Nat) : List (DWord × Nat) :=
  let o := va.toNat % 4096
  (List.range ((o + n + 4095) / 4096)).map (fun i =>
    if i = 0 then (va, min n (4096 - o)) else (va + BitVec.ofNat 64 (4096 * i - o), min 4096 (n - (4096 * i - o))))
/-- The physical parts of [va, va + n) under context 0; the error is the fault kind and the lowest faulting address. -/
def State.ctx0Map (s : State) (p : Nat) (va : DWord) (n : Nat) (write : Bool) : Except (Nat × DWord) (List (Nat × Nat)) :=
  if n = 0 then .ok [] else (pageSpans va n).mapM (fun q =>
    match s.ctx0Addr p q.1 write with
    | .ok pa => .ok (pa, q.2)
    | .error k => .error (k, q.1))
/-- n bytes at a context 0 address, at the point of coherence. -/
def State.ctx0Read (s : State) (p : Nat) (va : DWord) (n : Nat) : Except (Nat × DWord) (List Byte) :=
  (s.ctx0Map p va n false).map (fun l => l.flatMap (fun q => s.readPhysN q.1 q.2))
/-- The value of n bytes at a context 0 address. -/
def State.ctx0Nat (s : State) (p : Nat) (va : DWord) (n : Nat) : Except (Nat × DWord) Nat := (s.ctx0Read p va n).map leNat
/-- Bytes put at successive physical parts. -/
def State.putParts (s : State) (parts : List (Nat × Nat)) (bytes : List Byte) : State :=
  (parts.foldl (fun (q : State × List Byte) (e : Nat × Nat) =>
    (q.1.writePhysN e.1 (q.2.take e.2) false, q.2.drop e.2)) (s, bytes)).1
/-- Bytes stored at a context 0 address, at the point of coherence. Every page is checked before any byte is written. -/
def State.ctx0Write (s : State) (p : Nat) (va : DWord) (bytes : List Byte) : Except (Nat × DWord) State :=
  (s.ctx0Map p va bytes.length true).map (fun l => s.putParts l bytes)

/-! ## Contexts -/

/-- A context descriptor (R306). `zero` says that the bytes and bits that R306 gives as 0 are 0. -/
structure Desc where
  addr : DWord
  ptroot : Nat
  asid : Nat
  gen : Nat
  part : Nat
  flags : Nat
  priolim : Nat
  ballast : DWord
  bsize : Nat
  eptab : DWord
  sigmask : DWord
  sigpend : DWord
  gridlim : Nat
  token : DWord
  zero : Bool
deriving DecidableEq, Repr
/-- FLAGS bits of a descriptor: live, secure, stopped, orphaned. A descriptor with a reserved field set is refused (R4): it is not
live. -/
def Desc.live (d : Desc) : Bool := d.flags % 2 == 1 && d.zero
def Desc.secure (d : Desc) : Bool := d.flags / 2 % 2 == 1
def Desc.stopped (d : Desc) : Bool := d.flags / 4 % 2 == 1
def Desc.orphaned (d : Desc) : Bool := d.flags / 8 % 2 == 1
/-- Whether the distributor admits no block of the context: it is stopped (R311) or an orphan, whose blocks stay held (R382; DEDUCED, log
55). -/
def Desc.barred (d : Desc) : Bool := d.stopped || d.orphaned
/-- The context 0 address of the descriptor that CTXID<9:0> selects, by the core's CTXBASE (R306). -/
def State.descAddr (s : State) (c : Nat) (ctxid : BitVec 16) : DWord :=
  (s.core c).ctxbase + BitVec.ofNat 64 (128 * (ctxid.toNat % 1024))
/-- A descriptor from its 128 bytes. -/
def descOf (addr : DWord) (l : List Byte) : Desc :=
  let f (o n : Nat) : Nat := leNat ((l.drop o).take n)
  { addr, ptroot := f 0 8, asid := f 8 2, gen := f 10 1, part := f 11 1, flags := f 12 1, priolim := f 13 1,
    ballast := BitVec.ofNat 64 (f 16 8), bsize := f 24 8, eptab := BitVec.ofNat 64 (f 32 8),
    sigmask := BitVec.ofNat 64 (f 40 8), sigpend := BitVec.ofNat 64 (f 48 8), gridlim := f 56 4,
    token := BitVec.ofNat 64 (f 64 8), zero := f 12 1 < 16 && f 14 2 == 0 && f 60 4 == 0 && f 72 56 == 0 }
/-- The descriptor that a core reads for a CTXID, whatever its generation; none where context 0 does not map it. -/
def State.rawDesc (s : State) (c : Nat) (ctxid : BitVec 16) : Option Desc :=
  match s.ctx0Read (s.core c).part (s.descAddr c ctxid) 128 with
  | .ok l => some (descOf (s.descAddr c ctxid) l)
  | .error _ => none
/-- The descriptor of a live context whose generation matches CTXID<15:10> (R306). -/
def State.desc (s : State) (c : Nat) (ctxid : BitVec 16) : Option Desc :=
  (s.rawDesc c ctxid).filter (fun d => d.live && d.gen == ctxid.toNat / 1024)
/-- A field of n bytes at offset o of the context's descriptor written (R306). -/
def State.setDesc (s : State) (c : Nat) (ctxid : BitVec 16) (o x n : Nat) : State :=
  match s.ctx0Write (s.core c).part (s.descAddr c ctxid + BitVec.ofNat 64 o) (leBytes x n) with
  | .ok s' => s'
  | .error _ => s

/-- Who makes an access: the core, its partition, the ASID, the table root, whether user, whether of the secure world, and
the CTXID (0 for context 0). -/
structure Who where
  core : Nat
  part : Nat
  asid : Nat
  root : Nat
  user : Bool
  secure : Bool
  ctxid : BitVec 16
  ok : Bool
deriving DecidableEq, Repr
/-- The access identity of a context on a core. -/
def State.whoCtx (s : State) (c : Nat) (ctxid : BitVec 16) : Who :=
  match s.rawDesc c ctxid with
  | some d => { core := c, part := (s.core c).part, asid := d.asid, root := d.ptroot, user := true, secure := d.secure, ctxid, ok := true }
  | none => { core := c, part := (s.core c).part, asid := 0, root := 0, user := true, secure := false, ctxid, ok := false }
/-- The access identity of a group: its context's, or context 0 of the secure world for the supervisor (R287). -/
def State.whoGroup (s : State) (g : Group) : Who :=
  match s.blockOf g with
  | some b => s.whoCtx g.core b.ctxid
  | none => { core := g.core, part := (s.core g.core).part, asid := 0, root := s.root0 (s.core g.core).part, user := false, secure := true, ctxid := 0, ok := true }

/-! ## The permission cache -/

/-- The entry of the permission cache that matches an address (R323, R324). -/
def permFind (l : List PermEntry) (asid va : Nat) : Option PermEntry :=
  l.find? (fun e => (e.glob || e.asid == asid) && va / 2 ^ e.bits == e.va / 2 ^ e.bits)
/-- Whether a host-window page reads as not present (R381 step 4): the host port is down, or the context is an orphan, which the
partition's table says to an agent that is no core. -/
def State.hostGone (s : State) (w : Who) (e : PermEntry) : Bool :=
  e.stripe.isNone && hostBase ≤ e.pa && (!s.hostUp || (w.user &&
    (((aget? w.core s.cores).map (fun _ => w.core)).or (s.tableCore w.part)).any (fun c => (s.rawDesc c w.ctxid).any Desc.orphaned)))
/-- Whether the distributor admits no block of a context (R311, R381, R382): it is stopped or an orphan, or the failure of the host port holds its
blocks until CONT. -/
def State.bars (s : State) (ctxid : BitVec 16) (d : Desc) : Bool := d.barred || (aget? ctxid.toNat s.hostOrphans).isSome
/-- The entry for an address: the one that the core's cache holds, or a walk's (R143). A context whose descriptor cannot be
read has no tables: PTEMEM. -/
def State.permLookup (s : State) (w : Who) (va : DWord) : Except Nat PermEntry :=
  if !canonical va then .error kNONCANON
  else
    let r : Except Nat PermEntry := match permFind (s.core w.core).perm w.asid (va57 va) with
      | some e => .ok e
      | none => if w.ok then s.walk w.part w.ctxid w.asid w.root (va57 va) (w.asid == 0) else .error kPTEMEM
    match r with
    | .ok e => if s.hostGone w e then .error kNOTPRESENT else .ok e
    | .error k => .error k

/-- What an access does. -/
inductive Access where
  | read | write | atomicDev | atomicBlk | fetch
deriving DecidableEq, Repr
/-- Whether the access counts as a write (R144 kind 3). -/
def Access.writes : Access → Bool
  | .write | .atomicDev | .atomicBlk => true
  | _ => false
/-- The permission checks of R409 orders 3 to 6 on an entry. -/
def permCheck (w : Who) (a : Access) (e : PermEntry) : Except Nat Unit :=
  if w.user && !e.u then .error kUSER
  else if !w.secure && e.sec then .error kWORLD
  else if a == .fetch && !e.x then .error kNOEXEC
  else if a.writes && !e.w then .error kWRITE
  else .ok ()

/-! ## What an address reaches -/

/-- The target o bytes lower. -/
def Target.back (t : Target) (o : Nat) : Target :=
  match t with
  | .dev pa => .dev (pa - o)
  | .host pa h => .host (pa - o) h
  | .peer chip x va => .peer chip x (va - BitVec.ofNat 64 o)
/-- The target o bytes higher. -/
def Target.fwd (t : Target) (o : Nat) : Target :=
  match t with
  | .dev pa => .dev (pa + o)
  | .host pa h => .host (pa + o) h
  | .peer chip x va => .peer chip x (va + BitVec.ofNat 64 o)
/-- The address of stripe set n of a partition (R331, R386): the table stands at FWRES. -/
def State.stripeSet (s : State) (p n : Nat) : Nat := (s.part p).info.fwres + 2048 * n
/-- Whether a stripe set serves a context (R332): N from 1 to 64, OWNER the context, the reserved fields 0. -/
def State.stripeOk (s : State) (p n : Nat) (ctxid : BitVec 16) : Bool :=
  let a := s.stripeSet p n
  let nm := s.physNat a 1
  let zero (o k : Nat) : Bool := (s.readPhysN (a + o) k).all (· == 0)
  1 ≤ nm && nm ≤ 64 && s.physNat (a + 2) 2 == ctxid.toNat && zero 1 1 && zero 4 60 && zero 0x440 960 &&
    (List.range nm).all (fun m => zero (0x40 + 16 * m + 4) 4) && zero (0x40 + 16 * nm) (1024 - 16 * nm)
/-- The core by which the device reads the descriptor of a live context, the partition's `tableCore`, where its table holds it
(R306, R309). A partition in reset holds none (R390). -/
def State.ctxCore (s : State) (ctxid : BitVec 16) : Option Nat :=
  s.parts.findSome? (fun q => (s.tableCore q.1).filter (fun c =>
    !q.2.resetting && (s.desc c ctxid).any (fun d => d.part == q.1)))
/-- The inbound checks of R333 at this device, for an access to a member context of any of its partitions: the leaf of the member's
tables, or the kind. -/
def State.inboundLeaf (s : State) (ctxid : BitVec 16) (va : DWord) (write : Bool) : Except Nat PermEntry :=
  match (s.ctxCore ctxid).bind (fun c => s.desc c ctxid) with
  | none => .error kSTRIPE
  | some d =>
    if !canonical va then .error kNONCANON
    else match s.walk d.part ctxid d.asid d.ptroot (va57 va) false with
      | .error k => .error k
      | .ok e =>
        if !e.u then .error kUSER
        else if !e.ra then .error kNOREMOTE
        else if write && !e.w then .error kWRITE
        else if e.sec then .error kWORLD
        else if e.stripe.isSome || hbmEnd ≤ e.pa then .error kSTRIPE
        else .ok e
/-- The physical address of an inbound access (R333), or the kind. -/
def State.inbound (s : State) (ctxid : BitVec 16) (va : DWord) (write : Bool) : Except Nat Nat :=
  (s.inboundLeaf ctxid va write).map (fun e => e.pa + va57 va % 2 ^ e.bits)
/-- The member that serves a byte of a peer-striped page (R332): the chip, the member's context and the remote address. -/
def State.memberOf (s : State) (part set gran : Nat) (e : PermEntry) (va : DWord) : Nat × BitVec 16 × DWord :=
  let a := s.stripeSet part set
  let n := s.physNat a 1
  let g := gran + va57 va % 2 ^ e.bits / 4096
  let m := a + 0x40 + 16 * (g % n)
  (s.physNat m 2, BitVec.ofNat 16 (s.physNat (m + 2) 2), BitVec.ofNat 64 (s.physNat (m + 8) 8 + 4096 * (g / n) + va57 va % 4096))
/-- What a byte of a checked page reaches (R318, R332), or STRIPE. A member on this chip is served as an inbound access; one whose inbound
checks fail stays a peer's, and its request is answered with the kind (R334). -/
def State.targetOf (s : State) (w : Who) (e : PermEntry) (va : DWord) (write : Bool) : Except Nat Target :=
  let off := va57 va % 2 ^ e.bits
  match e.stripe with
  | none => if e.pa < hbmEnd then .ok (.dev (e.pa + off)) else .ok (.host (e.pa + off) (e.h && s.hostCxl))
  | some (set, gran) =>
    if !s.stripeOk w.part set w.ctxid then .error kSTRIPE
    else
      let m := s.memberOf w.part set gran e va
      if m.1 = s.chip then
        match s.inbound m.2.1 m.2.2 write with
        | .ok pa => .ok (.dev pa)
        | .error _ => .ok (.peer m.1 m.2.1 m.2.2)
      else .ok (.peer m.1 m.2.1 m.2.2)
/-- All the checks of R409 on one byte's address: the entry and the target, or the fault kind. An atomic of device or system
scope faults ATOMIC on a non-coherent host mapping that is cacheable, or over PCIe where R175 refuses it (`atomOk`). -/
def State.checkByte (s : State) (w : Who) (a : Access) (va : DWord) (atomOk : Bool) : Except Nat (PermEntry × Target) := do
  let e ← s.permLookup w va
  permCheck w a e
  let t ← s.targetOf w e va a.writes
  match a, t with
  | .atomicDev, .host _ false => if e.c || !atomOk then .error kATOMIC else pure (e, t)
  | _, _ => pure (e, t)

end Sys2Proof.Machine
end

