-- ==== Sys2Proof/Machine/Endpoint.lean ====
section
/-! DEFINITION. Tether endpoint records (R263 to R265), the acceptance of a send (R272), and retirement (R262). -/
namespace Sys2Proof.Machine

/-- An endpoint record (R263). -/
structure EpRec where
  st : Nat
  cm : Nat
  wake : Bool
  hgrp : Nat
  pend : Nat
  ovf : Nat
  nperm : Nat
  gridseq : Nat
  block : Nat
  lastsnd : Word
  payload : DWord
  perm : List DWord
deriving DecidableEq, Repr

/-- A record from its 320 bytes. -/
def epOf (l : List Byte) : EpRec :=
  let f (o n : Nat) : Nat := leNat ((l.drop o).take n)
  let c := f 0 4
  { st := c / 2 ^ 30, cm := c / 2 ^ 28 % 4, wake := c / 2 ^ 27 % 2 == 1, hgrp := c % 32, pend := f 4 2, ovf := f 6 1, nperm := f 7 1,
    gridseq := f 8 8, block := f 0x10 4, lastsnd := BitVec.ofNat 32 (f 0x14 4), payload := BitVec.ofNat 64 (f 0x18 8),
    perm := (List.range 32).map (fun k => BitVec.ofNat 64 (f (0x40 + 8 * k) 8)) }
/-- The 320 bytes of a record. -/
def epBytes (r : EpRec) : List Byte :=
  leBytes (r.st * 2 ^ 30 + r.cm * 2 ^ 28 + (if r.wake then 2 ^ 27 else 0) + r.hgrp) 4 ++ leBytes r.pend 2 ++ leBytes r.ovf 1 ++
    leBytes r.nperm 1 ++ leBytes r.gridseq 8 ++ leBytes r.block 4 ++ leBytes r.lastsnd.toNat 4 ++ leBytes r.payload.toNat 8 ++
    List.replicate 32 0 ++ r.perm.flatMap (fun x => leBytes x.toNat 8)
/-- The context 0 address of record e of a context. -/
def epAddr (d : Desc) (e : Nat) : DWord := d.eptab + BitVec.ofNat 64 (320 * e)
/-- Record e of a context, read at the point of coherence; a record that context 0 does not map reads as zeros (DESIGN CHOICE, log 18). -/
def State.ep (s : State) (part : Nat) (d : Desc) (e : Nat) : EpRec :=
  match s.ctx0Read part (epAddr d e) 320 with
  | .ok l => epOf l
  | .error _ => epOf []
/-- Record e of a context becomes r, as one update. -/
def State.setEp (s : State) (part : Nat) (d : Desc) (e : Nat) (r : EpRec) : State :=
  match s.ctx0Write part (epAddr d e) (epBytes r) with
  | .ok s' => s'
  | .error _ => s
/-- The first 24 bytes of a record, without payload and permissions. -/
def State.epHead (s : State) (part : Nat) (d : Desc) (e : Nat) : EpRec :=
  match s.ctx0Read part (epAddr d e) 0x18 with
  | .ok l => epOf l
  | .error _ => epOf []

/-- Whether a group handles the endpoint of a record: bound, to its GROUPID, block and grid (R275). -/
def EpRec.handledBy (r : EpRec) (b : Block) (gid : Nat) : Bool :=
  r.st == 1 && r.hgrp == gid && r.block == b.linear && r.gridseq == b.seq
/-- The sender id of kind 00 or 10 (R264). -/
def senderId (kind chip id : Nat) : Word := BitVec.ofNat 32 (kind * 2 ^ 30 + chip % 2 ^ 14 * 2 ^ 16 + id % 2 ^ 16)
/-- Whether a permission entry matches a sender id (R265); one with a reserved bit set matches none (R4). -/
def permMatches (x : DWord) (snd : Word) : Bool :=
  let sid := lo32 x
  x.getLsbD 63 && x.extractLsb' 32 29 == 0 && sid.extractLsb' 30 2 == snd.extractLsb' 30 2 &&
    (x.getLsbD 61 || sid.extractLsb' 16 14 == snd.extractLsb' 16 14) &&
    (x.getLsbD 62 || sid.extractLsb' 0 16 == snd.extractLsb' 0 16)
/-- Whether a sender is permitted (R265): the owning context on this chip, the supervisor's id, or an entry. -/
def State.permitted (s : State) (r : EpRec) (ctxid : BitVec 16) (snd : Word) : Bool :=
  snd == senderId 0 s.chip ctxid.toNat || snd == 0x3FFFFFFF#32 || r.perm.any (fun x => permMatches x snd)

/-- The block that stands at the head of its grid's return list (R243, R272). -/
def State.wakeBlock (s : State) (part seq linear : Nat) : State :=
  s.modGrid part seq (fun g =>
    { g with returns := (g.returns.filter (fun x => x.linear == linear)).map (fun x => { x with woken := true }) ++
               g.returns.filter (fun x => x.linear != linear) })
/-- The resident block with an identity. -/
def State.residentBlock (s : State) (part seq linear : Nat) : Option (Nat × Block) :=
  s.blocks.find? (fun e => e.2.part == part && e.2.seq == seq && e.2.linear == linear)
/-- Accept (R272), with the context's descriptor as the core c reads it: the status and the new state. -/
def State.accept (s : State) (c : Nat) (ctxid : BitVec 16) (e : Nat) (payload : DWord) (snd : Word) : Nat × State :=
  match (s.desc c ctxid).filter (fun d => d.part == (s.core c).part) with
  | none => (1, s)
  | some d =>
    let part := (s.core c).part
    let r := s.ep part d e
    if r.st == 2 then (4, s)
    else if r.st != 1 then (2, s)
    else if !s.permitted r ctxid snd then (3, s)
    else
      let r1 := if r.pend ≥ 65535 then { r with ovf := 1 } else { r with pend := r.pend + 1 }
      let p := match r.cm with
        | 0 => r.payload ||| payload
        | 1 => r.payload + payload
        | _ => payload
      let s1 := s.setEp part d e { r1 with payload := p, lastsnd := snd }
      let s2 := if r.wake && (s1.residentBlock part r.gridseq r.block).isNone then s1.wakeBlock part r.gridseq r.block else s1
      (0, s2)
/-- Endpoints that satisfy a condition retire (R262, R281): a pending count is discarded and recorded. -/
def State.retireEps (s : State) (c : Nat) (ctxid : BitVec 16) (f : EpRec → Bool) : State :=
  match s.rawDesc c ctxid with
  | none => s
  | some d =>
    let part := (s.core c).part
    (List.range 64).foldl (fun s e =>
      if f (s.epHead part d e) then
        let r := s.ep part d e
        let s1 := s.setEp part d e { r with st := 2, pend := 0 }
        if r.pend = 0 then s1 else s1.logEvent false 19 part c ctxid [BitVec.ofNat 64 e, BitVec.ofNat 64 r.pend]
      else s) s
/-- The endpoints of a context that a group of a block handles and that hold a pending send. -/
def State.pendingEps (s : State) (b : Block) (gid : Nat) : List Nat :=
  match s.rawDesc b.core b.ctxid with
  | none => []
  | some d => (List.range 64).filter (fun e =>
      let r := s.epHead (s.core b.core).part d e
      r.handledBy b gid && r.pend != 0)

/-! ## Signals and inbound faults (R283, R311, R333) -/

/-- A user signal delivered (R283): Accept of 2^n at endpoint 63, or its discard recorded. -/
def State.deliver (s : State) (c : Nat) (ctxid : BitVec 16) (n : Nat) : State :=
  let q := s.accept c ctxid 63 (BitVec.ofNat 64 (2 ^ n)) 0x3FFFFFFF#32
  if q.1 = 0 then q.2 else s.logEvent false 19 (s.core c).part c ctxid [BitVec.ofNat 64 n]
/-- A user signal posted (R299, R311): held in SIGPEND where SIGMASK masks it. -/
def State.userSignal (s : State) (c : Nat) (ctxid : BitVec 16) (n : Nat) : State :=
  match s.rawDesc c ctxid with
  | none => s
  | some d =>
    if d.sigmask.getLsbD n then s.setDesc c ctxid 0x30 (d.sigpend ||| (1#64 <<< n)).toNat 8
    else s.deliver c ctxid n
/-- The kind with which an access to a member on this chip fails (R333, R390). -/
def State.ownKind (s : State) (ctxid : BitVec 16) (va : DWord) (write : Bool) : Nat :=
  match s.inbound ctxid va write with
  | .error k => k
  | .ok _ => kSTRIPE
/-- A failed inbound access (R333, R375): the record and the signal to the owning context. -/
def State.inboundFault (s : State) (ctxid : BitVec 16) (kind : Nat) (va : DWord) : State :=
  match s.ctxCore ctxid with
  | none => s.logEvent false 18 0 0xFF ctxid [BitVec.ofNat 64 kind, (lo32 va).zeroExtend 64, (hi32 va).zeroExtend 64]
  | some c =>
    (s.logEvent false 18 (s.core c).part 0xFF ctxid [BitVec.ofNat 64 kind, (lo32 va).zeroExtend 64, (hi32 va).zeroExtend 64]).userSignal
      c ctxid 63

end Sys2Proof.Machine
end

