-- ==== Sys2Proof/Machine/Ops.lean ====
section
/-! DEFINITION. Roles (R17) and the places of records (R73, R313), losing a core (R316), taking a trap (R288, R291) and the returns from
it (R302, R305), and the end of slot 1 (R82). -/
namespace Sys2Proof.Machine

/-! ## Roles and record places -/

/-- The role number and the role of each GROUPID (R17). -/
def rolesByGid (roles : List Role) : List (Nat × Role) :=
  ((List.range roles.length).zip roles).flatMap (fun q => List.replicate q.2.ngrp q)
/-- A role that allots nothing. -/
def noRole : Role := { entry := 0, ngrp := 0, pgran := 0, fgran := 0 }
/-- The roles of a block's grid. -/
def State.rolesOf (s : State) (b : Block) : List Role := ((s.gridOf b).map Grid.roles).getD []
/-- The role of a group of a block. -/
def State.roleOf (s : State) (b : Block) (gid : Nat) : Role := ((rolesByGid (s.rolesOf b)).getD gid (0, noRole)).2
/-- The bytes of a group record (R313). -/
def groupRecSize (r : Role) : Nat := 4096 + 1024 * r.fgran
/-- The offset of the record of GROUPID gid in its block record (R313). -/
def groupRecOff (roles : List Role) (gid : Nat) : Nat :=
  4096 + (((rolesByGid roles).take gid).map (fun q => groupRecSize q.2)).sum
/-- The context 0 address of a group's divergence stack area (R73, R74). -/
def State.stackArea (s : State) (g : Group) : Option DWord :=
  (s.blockOf g).map (fun b => b.recAddr + BitVec.ofNat 64 (groupRecOff (s.rolesOf b) g.gid + 0x300))

/-! ## Losing a core (R316) -/

/-- A KIND 7 notice for a lost block (R301, R316). -/
def lostNotice (b : Block) (unit core : Nat) : Notice :=
  { kind := 7, popped := false, order := 0, slot := b.slot, ctxid := b.ctxid, info := 0, seq := b.seq, linear := b.linear,
    addr := BitVec.ofNat 64 (unit % 256 + 256 * (core % 256)), blk := none }
/-- The GANG trap of a group, for the lost core (R18, R295). -/
def gangTrap (core : Nat) (g : Group) : Trap := trap0 21 (BitVec.ofNat 32 core) g.mask0
/-- The groups of the other blocks of the lost block's gang park with cause GANG and the lost core in W0 (R18, R316). -/
def State.gangLost (s : State) (b : Block) (gang core : Nat) : State :=
  let mates := s.blocks.filter (fun e => e.2.part == b.part && e.2.seq == b.seq && e.2.linear / gang == b.linear / gang &&
    e.2.core != core)
  mates.foldl (fun s e => (s.liveGroups e.1).foldl (fun s k =>
    match s.group? k with
    | some g =>
      if g.parked then s else
        let g' := { g with trap := gangTrap core g, trapVpc := g.pc0, trapSlot := false, parked := true, state := .moored,
                           wait := .none, young := false, pend0 := none, pend1 := none, settle1 := false }
        let s := s.setGroup k g'
        (s.postMoor g.core (s.groupMoor k g')).1
    | none => s) (s.modBlock e.1 (fun k => { k with lost := some core }))) s
/-- The key of a block's ballast record (R307): its grid and its linear id. -/
def recKey (part seq linear : Nat) : Nat := gridKey part seq * 2 ^ 32 + linear
/-- A block's endpoints retire (R262). -/
def State.retireBlockEps (s : State) (b : Block) : State :=
  s.retireEps b.core b.ctxid (fun r => r.st == 1 && r.gridseq == b.seq && r.block == b.linear)
/-- Whether a swap request for a block already stands at its core. -/
def State.requested (s : State) (c bn : Nat) : Bool :=
  (s.core c).notices.any (fun e => e.2.kind == 4 && e.2.blk == some bn) || (s.core c).noticeWait.any (fun n => n.kind == 4 && n.blk == some bn)
/-- A swap request (R292, R301): reason 1 displacement, 2 pre-emption, 3 STOP. -/
def State.requestSwap (s : State) (bn : Nat) (b : Block) (reason : Nat) : State :=
  s.postNotice b.core { kind := 4, popped := false, order := 0, slot := b.slot, ctxid := b.ctxid, info := BitVec.ofNat 32 (reason * 2 ^ 28),
                        seq := b.seq, linear := b.linear, addr := 0, blk := some bn }
/-- A return-list entry put in its place (R243): at the head where WAKE moved it there, behind the block that its displacement makes room
for, and else in ascending linear id. -/
def insertReturn (x : Swapped) (l : List Swapped) : List Swapped :=
  let later (y : Swapped) : Bool := !y.woken && y.behind.isNone && decide (x.linear < y.linear)
  let ascending (l : List Swapped) : List Swapped := l.takeWhile (fun y => !later y) ++ x :: l.dropWhile (fun y => !later y)
  if x.woken then x :: l
  else match x.behind.bind (fun n => l.findIdx? (fun y => y.linear == n)) with
    | some i => l.take (i + 1) ++ ascending (l.drop (i + 1))
    | none => ascending l
/-- The promise of a block to a core is withdrawn: it stands on its return list again (R243, R257, R316). -/
def State.unreserve (s : State) (c bn : Nat) (r : Reserve) : State :=
  (s.modCore c (fun k => { k with reserve := adel bn k.reserve })).modGrid r.part r.seq (fun g => { g with returns := insertReturn r.entry g.returns })
/-- The gang size of a grid; 0 where it has none. -/
def State.gangOf (s : State) (part seq : Nat) : Nat := ((aget? (gridKey part seq) s.grids).map Grid.gang).getD 0
/-- The resident blocks of gang n of a grid (R18). -/
def State.gangHere (s : State) (part seq n : Nat) : List (Nat × Block) :=
  let gang := s.gangOf part seq
  s.blocks.filter (fun e => e.2.part == part && e.2.seq == seq && gang != 0 && e.2.linear / gang == n)
/-- The promises of the members of gang n of a grid: the core, the number, the reservation. -/
def State.gangPromises (s : State) (part seq n : Nat) : List (Nat × Nat × Reserve) :=
  let gang := s.gangOf part seq
  s.cores.flatMap (fun e => (e.2.reserve.filter (fun r =>
    r.2.part == part && r.2.seq == seq && gang != 0 && r.2.entry.linear / gang == n)).map (fun r => (e.1, r.1, r.2)))
/-- The promises of gang n of a grid are withdrawn. -/
def State.unpromiseGang (s : State) (part seq n : Nat) : State :=
  (s.gangPromises part seq n).foldl (fun s q => s.unreserve q.1 q.2.1 q.2.2) s
/-- Gang n of a grid leaves its cores as a whole (R244, R257): its promises are withdrawn, and its resident blocks are asked to swap out. -/
def State.recallGang (s : State) (part seq n reason : Nat) : State :=
  ((s.unpromiseGang part seq n).gangHere part seq n).foldl (fun s e =>
    if s.requested e.2.core e.1 then s else s.requestSwap e.1 e.2 reason) (s.unpromiseGang part seq n)
/-- The promises of a core are withdrawn, each gang's as a whole. -/
def State.unpromise (s : State) (c reason : Nat) : State :=
  (s.core c).reserve.foldl (fun s q =>
    let gang := s.gangOf q.2.part q.2.seq
    if gang = 0 then s.unreserve c q.1 q.2 else s.recallGang q.2.part q.2.seq (q.2.entry.linear / gang) reason) s
/-- A block is lost (R316): its grid's status, its record and its endpoints, and the notice to the lowest healthy core. What its gang was
promised is withdrawn. -/
def State.loseBlock (s : State) (b : Block) (unit core : Nat) : State :=
  let gang := ((s.gridOf b).map Grid.gang).getD 0
  let s := s.modGrid b.part b.seq (fun g =>
    { g with status := max g.status (if g.gang = 0 then 3 else 4), nfail := g.nfail + 1, retired := g.retired + 1,
             killed := g.killed || g.gang != 0, detail := BitVec.ofNat 64 core })
  let s := { s.retireBlockEps b with ballast := adel (recKey b.part b.seq b.linear) s.ballast }
  let s := if gang = 0 then s else (s.gangLost b gang core).unpromiseGang b.part b.seq (b.linear / gang)
  match s.healthy b.part with
  | h :: _ => s.postNotice h (lostNotice b unit core)
  | [] => s
/-- A grid's status raised by failures, with the DETAIL of the status that applies: that of the oldest (R239). -/
def Grid.fail (g : Grid) (status n : Nat) (detail : DWord) (age : Nat) : Grid :=
  let take := g.status < status || (g.status == status && age < g.detailAge)
  { g with status := max g.status status, nfail := g.nfail + n, detail := if take then detail else g.detail,
           detailAge := if take then age else g.detailAge }
/-- Grids of a partition whose gangs no longer find enough healthy cores end, for the core just lost (R239, R244). -/
def State.endGangs (s : State) (part core : Nat) : State :=
  { s with grids := s.grids.map (fun (e : Nat × Grid) =>
      if e.2.part == part && e.2.live && (s.healthy part).length < e.2.gang then
        (e.1, { e.2.fail 4 0 (BitVec.ofNat 64 core) s.failSeq with killed := true })
      else e) }
/-- The core is fenced offline with its blocks, entries and caches (R316), and the loss is noticed and recorded. -/
def State.fenceCore (s : State) (c unit : Nat) : State :=
  let k := s.core c
  let lost := s.blocks.filter (fun e => e.2.core == c)
  let s := s.unpromise c 1
  let s := s.modPart k.part (fun p => { p with enlists := p.enlists.map (fun e => { e with cores := e.cores.erase c }) })
  let s := s.modCore c (fun k =>
    { k with fenced := true, l1 := [], l1Poison := [], l1Own := [], ro := [], roPoison := [], perm := [], mq := [], notices := [],
             noticeWait := [], regq := [], reserve := [], ops := [], slotq := [], comps := [] })
  let sectors : List Nat := lost.flatMap (fun (e : Nat × Block) => e.2.stashFilled.map (fun q => q.2.1 / 64))
  let s := { s with memPoison := sectors.foldl (fun p x => setAdd x p) s.memPoison }
  let s := { s with groups := s.groups.filter (fun e => e.2.core != c),
                    blocks := s.blocks.filter (fun e => e.2.core != c) }
  let s := lost.foldl (fun s e => s.loseBlock e.2 unit c) s
  (s.endGangs k.part c).logEvent true 1 k.part c 0 [BitVec.ofNat 64 unit]

/-! ## Taking a trap, and the returns -/

/-- A user group parks (R291): the header's trap fields, and a mooring entry where one is free. A wait of slot 0 stands through a trap of
slot 1 (R90). The word of slot 0 has issued where it traps, which ends YIELD's rank (R89). -/
def State.park (s : State) (key : Nat) (g : Group) (slot1 : Bool) (vpc : DWord) (t : Trap) : State :=
  let g' := { g with trap := t, trapVpc := vpc, trapSlot := slot1, parked := true, state := .moored,
                     wait := if slot1 then g.wait else .none, young := slot1 && g.young, pend0 := if slot1 then g.pend0 else none,
                     pend1 := if slot1 then none else g.pend1, settle1 := !slot1 && g.settle1 }
  let s := (s.setGroup key g').modCore g.core (fun k =>
    { k with slotq := if slot1 then k.slotq else k.slotq.filter (fun q => q.2 != key) })
  (s.postMoor g.core (s.groupMoor key g')).1
/-- The supervisor group's trap (R288): SCAUSE, SDETAIL, SEPC and NEST, and the PC at SVEC; under NEST, or with SVEC = 0, a
double fault fences the core. The unit that such a core reports is not stated: a free value. -/
def State.supTrap (s : State) (key : Nat) (g : Group) (vpc : DWord) (t : Trap) : State :=
  let k := s.core g.core
  if k.nest || k.svec == 0 then (s.fenceCore g.core (Config.freeNat s.freeCtr)).takeFree 1
  else
    let s := s.modCore g.core (fun k =>
      { k with scause := t.cause, sdetail := (t.w0, t.w1, t.w2), sepc := vpc, nest := true })
    s.setGroup key { g with pc0 := k.svec, wait := .none, young := false, retry0 := Retry.none, pend0 := none }
/-- Taking an exception, at a virtual PC (R7): the one operation by which every trap of every word is taken. -/
def State.takeTrapAt (s : State) (key : Nat) (g : Group) (slot1 : Bool) (vpc : DWord) (t : Trap) : State :=
  if g.isSup then s.supTrap key g vpc t else s.park key g slot1 vpc t
/-- The return from a supervisor trap (R305): PC ← SEPC and NEST ← 0. -/
def State.svReturn (s : State) (key : Nat) (g : Group) : State :=
  (s.modCore g.core (fun k => { k with nest := false })).setGroup key { g with pc0 := (s.core g.core).sepc }
/-- The return of a parked group (R302): both slots resume from their PCs; a MEMORY or WATCH word is limited to the unfinished lanes, and a
word of another cause to the lanes that it had not finished (R173). `next` moves the trapping slot past its word. A word of WATCH or of a
virtual-PC BREAK is not stopped again by the event that stopped it (R363). -/
def Group.resume (g : Group) (next : Bool) : Group :=
  let g1 := { g with parked := false, state := .running, failrec := [] }
  if next then (g1.setPc g.trapSlot (g.trapVpc + 8)).setRetry g.trapSlot Retry.none
  else g1.setRetry g.trapSlot
    { redo := if g.trap.cause = 5 ∨ g.trap.cause = 7 then some g.trap.unfin else g.redo g.trapSlot,
      skipBreak := if g.trap.cause = 8 ∧ g.trap.w0.getLsbD 16 then some ((g.trap.w0.toNat / 2 ^ 17) % 4) else none,
      skipWatch := g.trap.cause == 7 }

/-! ## Slot 1 (R82) -/

/-- The KIND of a stack entry. -/
def StackEntry.kind (e : StackEntry) : Nat := e.kf.toNat % 256
/-- The SPLIT flag of a stack entry. -/
def StackEntry.split (e : StackEntry) : Bool := e.kf.getLsbD 8
/-- SPLIT ← b. -/
def StackEntry.setSplit (e : StackEntry) (b : Bool) : StackEntry :=
  { e with kf := if b then e.kf ||| 0x100#64 else e.kf &&& ~~~0x100#64 }
/-- The rest of StopSecondary once the divided entry holds slot 1's mask and PC: the held flags are merged, slot 1 is free. PC1 and MASK1 read
0 from then on (DESIGN CHOICE, log 68: no rule says what they hold while slot 1 is free). -/
def Group.freeSlot1 (g : Group) : Group :=
  { g with fpflags := g.fpflags ||| g.held.zeroExtend 32, held := 0, run1 := false, mask1 := 0, pc1 := 0, retry1 := Retry.none,
           pend1 := none, settle1 := false, wait := if g.wait = .undivided ∨ g.wait = .splitTop then .none else g.wait }
/-- The divided entry with slot 1's mask and PC. -/
def Group.joined (g : Group) (e : StackEntry) : StackEntry := { (e.setSplit false) with pm := g.mask1, pc := g.pc1 }
/-- StopSecondary (R82) where the divided entry is on chip. -/
def Group.stopSecondary (g : Group) : Group :=
  let i := g.stack.findIdx StackEntry.split
  { g with stack := g.stack.modify i g.joined }.freeSlot1
/-- The DIVSTACK trap of an access to the stack area that faulted (R74). -/
def areaTrap (e : Nat × DWord) (lanes : Mask) : Trap := trap64 18 (BitVec.ofNat 32 (2 + 256 * e.1)) e.2 lanes
/-- The 32 bytes of an entry (R73). -/
def StackEntry.bytes (e : StackEntry) : List Byte :=
  leBytes e.rm.toNat 4 ++ leBytes e.pm.toNat 4 ++ leBytes e.pc.toNat 8 ++ leBytes e.epc.toNat 8 ++ leBytes e.kf.toNat 8
/-- An entry from its 32 bytes. -/
def stackEntryOf (l : List Byte) : StackEntry :=
  let f (o n : Nat) : Nat := leNat ((l.drop o).take n)
  { rm := BitVec.ofNat 32 (f 0 4), pm := BitVec.ofNat 32 (f 4 4), pc := BitVec.ofNat 64 (f 8 8), epc := BitVec.ofNat 64 (f 16 8),
    kf := BitVec.ofNat 64 (f 24 8) }
/-- The entry at a position in the stack area. -/
def State.areaRead (s : State) (g : Group) (pos : Nat) (cur : Mask) : Res StackEntry :=
  match s.stackArea g with
  | none => .error (.fault .noGroup)
  | some a => match s.ctx0Read (s.core g.core).part (a + BitVec.ofNat 64 (32 * pos)) 32 with
    | .ok l => .ok (stackEntryOf l)
    | .error e => .error (.trap (areaTrap e cur))
/-- An entry written at a position of the stack area. -/
def State.areaWrite (s : State) (g : Group) (pos : Nat) (e : StackEntry) (cur : Mask) : Res State :=
  match s.stackArea g with
  | none => .error (.fault .noGroup)
  | some a => match s.ctx0Write (s.core g.core).part (a + BitVec.ofNat 64 (32 * pos)) e.bytes with
    | .ok s' => .ok s'
    | .error e => .error (.trap (areaTrap e cur))
/-- The position of the divided entry among the n lowest of the stack area. -/
def State.splitPos (s : State) (g : Group) (n : Nat) (cur : Mask) : Res (Option (Nat × StackEntry)) :=
  match n with
  | 0 => .ok none
  | n + 1 => do
    let e ← s.areaRead g n cur
    if e.split then pure (some (n, e)) else s.splitPos g n cur
/-- StopSecondary (R82): the divided entry stands on chip, or in the stack area where later pushes have sent it. -/
def State.stopSlot1 (s : State) (g : Group) : Res (State × Group) :=
  if g.isSup || g.spill = 0 || g.stack.any StackEntry.split then .ok (s, g.stopSecondary)
  else do
    match ← s.splitPos g g.spill g.mask1 with
    | none => pure (s, g.freeSlot1)
    | some (pos, e) => do
      let s' ← s.areaWrite g pos (g.joined e) g.mask1
      pure (s', g.freeSlot1)
/-- Slot 1 of a group stops (R82). A fault of the stack area traps at slot 1's word. -/
def State.stopSecondary (s : State) (key : Nat) (g : Group) : Out State :=
  match s.stopSlot1 g with
  | .ok q => .next (q.1.setGroup key q.2)
  | .error (.trap t) => .next (s.takeTrapAt key g true g.pc1 t)
  | .error (.part s' t) => .next (s'.takeTrapAt key g true g.pc1 t)
  | .error (.wait s' _) => .next s'
  | .error (.fault f) => .fault f

end Sys2Proof.Machine
end

