-- ==== Sys2Proof/Machine/Operands.lean ====
section
/-! DEFINITION. The checks that every word passes before its own operation (R50, R51, R57, R82, R83, R280), the operands of
lane words, and how a word commits. -/
namespace Sys2Proof.Machine

/-- The word of an instruction, for TRAPDETAIL. -/
def wordOf (i : Instr) : DWord := (encode i).getD 0
/-- The OP field of a full word. -/
def opField (w : DWord) : Nat := (w.extractLsb' 54 9).toNat
/-- The privileged opcodes (R49, R50). -/
def privileged (op : Nat) : Bool := (0x164 ≤ op && op ≤ 0x16D) || (0x16F ≤ op && op ≤ 0x173)
/-- The opcodes outside the supervisor's subset (R51): the matrix, launch and tether classes, SYSCALL and SYSCALLB. -/
def supForbidden (op : Nat) : Bool := (0x120 ≤ op && op ≤ 0x15F) || op == 0x160 || op == 0x161
/-- The retired codes (R55). -/
def retiredOp (op : Nat) : Bool := 0x1C0 ≤ op && op ≤ 0x1C8
/-- The assigned opcodes of the memory and atomic classes in the M form (R49). -/
def isMForm (op : Nat) : Bool :=
  (0x0B0 ≤ op && op ≤ 0x0B2) || op == 0x0B4 || op == 0x0B5 || (0x0B8 ≤ op && op ≤ 0x0BB) || op == 0x0BD ||
    (0x0E0 ≤ op && op ≤ 0x0F5) || op == 0x1C6
/-- The I-form opcodes of the integer and floating classes (R49). -/
def isIForm (op : Nat) : Bool := [0x021, 0x025, 0x033, 0x035, 0x037, 0x045, 0x046, 0x049, 0x061, 0x063].contains op
/-- The opcodes that take no guard (R32). -/
def noGuardOp (op : Nat) : Bool :=
  (0x002 ≤ op && op ≤ 0x00F) || op == 0x0F6 || op == 0x121 || op == 0x122 || (0x141 ≤ op && op ≤ 0x144) || op == 0x161
/-- Whether slot 1 stops before the word (R82). The rule's table does not say how an unassigned or reserved code outside 0x000 to 0x01F stands:
the word stops slot 1 by the class in whose range its code lies, or by the bits where that class's uniform fields stand, and else traps
ILLEGAL in slot 1 (DESIGN CHOICE, log 68). -/
def stopsSlot1 (w : DWord) : Bool :=
  let op := opField w
  let u := w.getLsbD 17 || w.getLsbD 16 || w.getLsbD 15
  if w.getLsbD 63 then false
  else if op ≤ 0x01F then
    !(op ≤ 1 || (op == 2 && [0, 3, 4, 5].contains (w.extractLsb' 23 3).toNat))
  else if 0x100 ≤ op && op ≤ 0x17F then true
  else if noGuardOp op || [0x046, 0x04D, 0x0A2, 0x0A3, 0x0B6, 0x0B7, 0x0F7, 0x0F9, 0x0FA, 0x0FB].contains op then true
  else if 0x180 ≤ op && op ≤ 0x1BF then op == 0x180 || w.extractLsb' 0 2 == 2
  else if isMForm op then w.getLsbD 16
  else if isIForm op then false
  else if (0x020 ≤ op && op ≤ 0x05F) || (0x1C0 ≤ op && op ≤ 0x1C8) then
    u || w.getLsbD 0 || ((op == 0x051 || op == 0x052) && w.getLsbD 5)
  else if 0x060 ≤ op && op ≤ 0x0AF then u || (w.getLsbD 0 && !w.getLsbD 8)
  else if op == 0x0F8 then u || w.getLsbD 8 || w.getLsbD 7
  else if op == 0x0FC then u || w.getLsbD 7
  else u
/-- Whether slot 0 waits before the word while the group is divided (R83): a word that writes FPMODE or ARITHMODE, a matrix
word, BAR, GANGBAR, SYSCALLB, REGREL. The wait of ELSE, ENDIF and Resolve is their own. -/
def slot0Waits (w : DWord) : Bool :=
  let op := opField w
  !w.getLsbD 63 && (op == 0x0A2 || (0x120 ≤ op && op ≤ 0x13F) || op == 0x0F6 || op == 0x143 || op == 0x144 || op == 0x161)
/-- Whether a GANGBAR traps before it waits for slot 1 (R254): the block's grid has no gangs. -/
def State.gangless (s : State) (w : DWord) (g : Group) : Bool :=
  !w.getLsbD 63 && opField w == 0x144 && (((s.blockOf g).bind s.gridOf).map Grid.gang).getD 0 == 0
/-- The words that an entry bars whether or not the group is divided (R280). -/
def entryBars (w : DWord) : Bool :=
  let op := opField w
  !w.getLsbD 63 && (op == 0x0F6 || op == 0x144 || op == 0x121 || op == 0x122)

/-- A run of lane registers that a field names: the field (0 D, 1 A, 2 B, 3 C), whether it stands in H1, the first register
and the length (R30). -/
structure RegRun where
  field : Nat
  h1 : Bool
  first : Nat
  len : Nat
deriving DecidableEq, Repr
/-- The lane run of one field. -/
def fieldRun (k : Nat) (f : Field) (v : Nat) (u : Bool) : List RegRun :=
  match f with
  | .lane n _ => [{ field := k, h1 := false, first := v, len := n }]
  | .gen n _ => if u then [] else [{ field := k, h1 := false, first := v, len := n }]
  | _ => []
/-- The lane runs of one half of a pair word (R44): MOV with an immediate names only D. -/
def halfRuns (h : Half) (h1 : Bool) : List RegRun :=
  { field := 0, h1, first := h.d.toNat, len := 1 } ::
    (if h.op = .mov ∧ h.isImm then [] else [{ field := 1, h1, first := h.a.toNat, len := 1 }])
/-- The lane runs of a word in the order D, A, B, C (R30). -/
def runsOf (i : Instr) : List RegRun :=
  match i with
  | .pairWord p => halfRuns p.h0 false ++ halfRuns p.h1 true
  | _ => match ruleOf i with
    | some (v, k) =>
      fieldRun 0 k.d v.d false ++ fieldRun 1 k.a v.a v.ua ++ fieldRun 2 k.b v.b v.ub ++ fieldRun 3 k.c v.c v.uc
    | none => []
/-- The REGBOUND trap of runs against an allotment (R30, R295): the highest register not below it, and the first field that
names that register. W0<15:8> holds the number modulo 256, which a run that passes v255 exceeds (DESIGN CHOICE, log 61). -/
def regBound (allot : Nat) (runs : List RegRun) (cur : Mask) : Option Trap :=
  let top := (runs.map (fun r => r.first + r.len - 1)).foldl max 0
  if top < allot then none
  else match runs.find? (fun r => r.first + r.len - 1 == top) with
    | none => none
    | some r => some (trap0 10 (BitVec.ofNat 32 (2 * r.field + (if r.h1 then 16 else 0) + 256 * (top % 256) +
        2 ^ 24 * (allot / 8))) cur)

/-- The ILLEGAL trap of a word (R59, R295). -/
def illegal (w : DWord) (reason : Nat) (h0 h1 : Bool) (cur : Mask) : Trap :=
  trap64 1 (BitVec.ofNat 32 (reason + (if h0 then 16 else 0) + (if h1 then 32 else 0))) w cur
/-- The RETIRED or PRIVILEGE trap of a word (R295): W0 holds OP. -/
def opTrap (cause : Nat) (w : DWord) (lanes : Mask) : Trap := trap64 cause (BitVec.ofNat 32 (opField w)) w lanes

/-- The guard fields PG and PN of a word (R28); a pair word and a B-form word have none. -/
def guardOf (i : Instr) : Nat × Bool :=
  match ruleOf i with
  | some (v, _) => (v.pg, v.pn)
  | none => (7, false)

/-- The commit of a word that goes on at the next word: the slot's PC advances, a retry is over, YIELD's rank ends. -/
def Group.advance (g : Group) (slot1 : Bool) : Group :=
  let g1 := (g.setPc slot1 (g.pc slot1 + 8)).setRetry slot1 Retry.none
  if slot1 then { g1 with pend1 := none, settle1 := false } else { g1 with wait := .none, young := false, pend0 := none }
/-- The advance of the issuing slot. -/
def State.advance (s : State) : State := s.modGroup s.cur.key (fun g => g.advance s.cur.slot1)
/-- The wait of the issuing slot at its word: slot 1 waits only for its own access and for the accesses before it. A word that waits has
issued, which ends YIELD's rank (R89), but before the waits of R81 and R83 it has not. -/
def State.waitAt (s : State) (w : Wait) : State :=
  s.modGroup s.cur.key (fun g =>
    if s.cur.slot1 then { g with settle1 := w == .settle }
    else { g with wait := w, young := g.young && (w == .undivided || w == .splitTop) })
/-- The outcome of a word's operation: its state, its trap (R7), its wait. -/
def finish (s : State) (r : Res State) : Out State :=
  let trapIn (s1 : State) (t : Trap) : State :=
    match s1.group? s.cur.key with
    | some g => s1.takeTrapAt s.cur.key g s.cur.slot1 (g.pc s.cur.slot1) t
    | none => s1
  match r with
  | .ok s' => .next s'
  | .error (.trap t) => .next (trapIn s t)
  | .error (.part s' t) => .next (trapIn s' t)
  | .error (.wait s' w) => .next (s'.waitAt w)
  | .error (.fault f) => .fault f

/-- The checks of R57 on a word that decodes, with R51, the state-dependent reasons `bad`, and `runs` in place of the fields' own runs
where the format slot gives their lengths; then R280. -/
def decodeChecks (i : Instr) (g : Group) (slot1 : Bool) (bad : List Nat) (runs : List RegRun) : Option Trap :=
  let w := wordOf i
  let cur := g.mask slot1
  let op := opField w
  let full := !w.getLsbD 63
  if full && !g.isSup && privileged op then some (opTrap 3 w cur)
  else match minReason (bad ++ (if full && g.isSup && supForbidden op then [9] else [])) with
    | some n => some (illegal w n false false cur)
    | none => match regBound g.allot (if runs.isEmpty then runsOf i else runs) cur with
      | some t => some t
      | none =>
        if g.inEntry && !g.isSup && (entryBars w || (g.divided && slot0Waits w)) then some (trap0 20 4 cur) else none

/-- The issue of a word by the group and slot of `cur`: slot 1 stops (R82), slot 0 waits for slot 1 (R83), the checks of
R57, R51 and R280, and then the operation, on the state, the group and ACTIVE. -/
def issueWith (i : Instr) (s : State) (bad : Group → List Nat) (runs : Group → List RegRun)
    (body : Group → Mask → Res State) : Out State :=
  match s.group? s.cur.key with
  | none => .fault .noGroup
  | some g =>
    let w := wordOf i
    if s.cur.slot1 && stopsSlot1 w then s.stopSecondary s.cur.key g
    else if !s.cur.slot1 && !g.inEntry && g.divided && slot0Waits w && !s.gangless w g then .next (s.waitAt .undivided)
    else match decodeChecks i g s.cur.slot1 (bad g) (runs g) with
      | some t => finish s (.error (.trap t))
      | none =>
        let (pg, pn) := guardOf i
        finish s (body g (g.active s.cur.slot1 pg pn))
/-- The issue of a word without state-dependent reasons. -/
def issue (i : Instr) (s : State) (body : Group → Mask → Res State) : Out State :=
  issueWith i s (fun _ => []) (fun _ => []) body
/-- A word that acts only on its group's own state: with ACTIVE empty it has no effect (R5); then the slot goes on. -/
def groupWord (i : Instr) (s : State) (f : Group → Mask → Res Group) : Out State :=
  issue i s (fun g m =>
    if m = 0 then .ok s.advance
    else do
      let g' ← f g m
      pure (s.setGroup s.cur.key g').advance)
/-- A word that acts on the state, once when ACTIVE is not empty (R5); then the slot goes on. -/
def stateWord (i : Instr) (s : State) (f : Group → Mask → Res State) : Out State :=
  issue i s (fun g m =>
    if m = 0 then .ok s.advance
    else do
      let s' ← f g m
      pure s'.advance)

/-! ## Operands of lane words -/

/-- A source register of lane L: lane or uniform (R34). -/
def Group.src (g : Group) (reg : Nat) (u : Bool) (l : Nat) : Word := if u then g.getS reg else g.getV reg l
/-- A source pair of lane L. -/
def Group.src64 (g : Group) (reg : Nat) (u : Bool) (l : Nat) : DWord := pair (g.src reg u l) (g.src (reg + 1) u l)
/-- The lanes in which n registers from reg hold poison; a poisoned uniform names every lane (R94). -/
def Group.srcPoison (g : Group) (reg n : Nat) (u : Bool) : Mask :=
  (List.range n).foldl (fun m k =>
    m ||| (if u then (if g.poisonS (reg + k) then BitVec.allOnes 32 else 0) else g.poisonV (reg + k))) 0
/-- The destination of one register (R35): a lane register in the lanes of m, or a uniform register written once with the
lowest lane's value. -/
def Group.dst (g : Group) (ud : Bool) (d : Nat) (m poison : Mask) (f : Nat → Word) : Group :=
  if ud then g.setS d (f (lowLane m)) (poison.getLsbD (lowLane m)) else g.writeV d m poison f
/-- The destination pair. -/
def Group.dst64 (g : Group) (ud : Bool) (d : Nat) (m poison : Mask) (f : Nat → DWord) : Group :=
  (g.dst ud d m poison (fun l => lo32 (f l))).dst ud (d + 1) m poison (fun l => hi32 (f l))
/-- The POISON trap (R94, R295): use, register, whether uniform, and the ACTIVE lanes whose consumed value is poisoned. -/
def poisonTrap (use reg : Nat) (uni : Bool) (lanes : Mask) : Trap :=
  trap0 14 (BitVec.ofNat 32 (use + 16 * (reg % 256) + (if uni then 4096 else 0))) lanes
/-- The first register of a run that is poisoned in some lane of m. -/
def Group.poisonedReg (g : Group) (reg n : Nat) (u : Bool) (m : Mask) : Option Nat :=
  ((List.range n).map (fun k => reg + k)).find? (fun i => g.srcPoison i 1 u &&& m != 0)
/-- Consumption of poison by sources (register, length, uniform) (R94): the trap names every ACTIVE lane whose value is poisoned. Which of
several poisoned registers it names is not stated: the first, in the order given, that is poisoned in some ACTIVE lane, so A's before B's
whatever the lanes (DESIGN CHOICE, log 34). -/
def Group.consume (g : Group) (use : Nat) (m : Mask) (srcs : List (Nat × Nat × Bool)) : Res Unit :=
  let lanes := srcs.foldl (fun p q => p ||| (g.srcPoison q.1 q.2.1 q.2.2 &&& m)) 0
  if lanes = 0 then .ok ()
  else match srcs.findSome? (fun q => (g.poisonedReg q.1 q.2.1 q.2.2 m).map (fun r => (r, q.2.2))) with
    | some (r, u) => .error (.trap (poisonTrap use r u lanes))
    | none => .ok ()
/-- Consumption of poisoned uniform registers by a word that acts once: TRAPLANES is ACTIVE (R267, R352, R359). -/
def Group.consumeU (g : Group) (use : Nat) (m : Mask) (regs : List Nat) : Res Unit :=
  match regs.find? g.poisonS with
  | some r => .error (.trap (poisonTrap use r true m))
  | none => .ok ()

end Sys2Proof.Machine
end

