-- ==== Sys2Proof/Machine/Place.lean ====
section
/-! DEFINITION. A device on which a given word is the next to issue: the load from outside for which `State.withFetchWord`
stands (DESIGN CHOICE, log 8). Page tables, a context and its code page stand in device memory as their rules lay them out. -/
namespace Sys2Proof.Machine

/-- A table entry that names a table (R320). -/
def tableEntry (pa : Nat) : Nat := pa + 1
/-- A 1 GiB leaf (R320): present, writable, executable and cacheable, for user groups where `u` says so. -/
def gigLeaf (pa : Nat) (u : Bool) : Nat := pa + 0xC8D + (if u then 16 else 0)
/-- The three tables from `root` on that map the lowest GiB of addresses to the GiB at pa (R319). -/
def gigTables (root pa : Nat) (u : Bool) : List (Nat × Nat) :=
  [(root, tableEntry (root + 4096)), (root + 4096, tableEntry (root + 8192)), (root + 8192, gigLeaf pa u)]
/-- The GiB that holds a partition's firmware reserve, which context 0 of the placed device maps at 0. -/
def State.placedBase (s : State) : Nat := (s.part 0).info.fwres / 2 ^ 30 * 2 ^ 30
/-- Where the placed context's tables stand. -/
def placedRoot : Nat := 0x1000
/-- Where a placed user word stands. -/
def placedPc : Nat := 0x100000
/-- The placed context's CTXID and ASID. -/
def placedCtx : Nat := 1
/-- The placed context's descriptor (R306): live, ASID 1, endpoint table at 0x20000, ballast at 0x40000. -/
def placedDesc : List Byte :=
  leBytes placedRoot 8 ++ leBytes placedCtx 2 ++ leBytes 0 2 ++ leBytes 1 1 ++ leBytes 7 1 ++ leBytes 0 2 ++ leBytes 0x40000 8 ++
    leBytes 0x1000000 8 ++ leBytes 0x20000 8 ++ leBytes 0 16 ++ leBytes 16 4
/-- Values of 8 bytes put at addresses of device memory. -/
def State.putWords (s : State) (l : List (Nat × Nat)) : State :=
  l.foldl (fun s e => s.writePhysN e.1 (leBytes e.2 8) false) s
/-- The one role of the placed grid: one group with a whole allotment. -/
def placedRole : Role := { entry := BitVec.ofNat 64 placedPc, ngrp := 1, pgran := 32, fgran := 32 }
/-- The placed grid. -/
def placedGrid : Grid :=
  { part := 0, seq := 1, ctxid := BitVec.ofNat 16 placedCtx, asid := BitVec.ofNat 16 placedCtx, depth := 1, parent := none, collected := false,
    ord := false, crec := false, roles := [placedRole], gang := 0, ntbar := 16, prio := 0, pwr := 0, deps := [], nbx := 1, nby := 1,
    nbz := 1, localSize := 4096, stashSize := 0, arg := 0, craddr := 0, fs := [], claimed := 1, returns := [], replays := [],
    retired := 0, live := true, killed := false, status := 0, nfail := 0, detail := 0, detailAge := 0, engrec := [], engAge := 0, stamp := 0 }
/-- The placed block, on core 0. -/
def placedBlock : Block :=
  { core := 0, slot := 0, part := 0, seq := 1, linear := 0, ctxid := BitVec.ofNat 16 placedCtx, asid := BitVec.ofNat 16 placedCtx,
    recAddr := 0x40000, ngroup := 1, ntbar := 16, localSize := 4096, stashSize := 0, gang := false, age := 0, loc := [], locPoison := [],
    stash := [], stashFilled := [], bars := [], sysArrived := [], sysBad := [], tbars := [], gangArrived := 0, gangPhase := false, quadR := [],
    bins := [], stopped := false, lost := none, behind := none }
/-- The placed group: group 0 of block 0, at the first position of quarter 0. -/
def placedGroup : Group := { Group.fresh 0 (some 0) 0 0 256 (BitVec.allOnes 32) (BitVec.ofNat 64 placedPc) with pos := some 0 }
/-- Context 0's tables and the descriptor of the placed context. -/
def State.placeContexts (s : State) : State :=
  (s.putWords (gigTables (s.root0 0) s.placedBase false ++ gigTables placedRoot 0 true)).writePhysN
    (s.placedBase + 128 * placedCtx) placedDesc false
/-- The device with the word as the next of core 0's first quarter: a privileged word as the supervisor group's, any other as the
placed group's, while the supervisor group stands in HALT. -/
def State.placeWord (s : State) (w : DWord) : State :=
  let s1 := { s.placeContexts with agenda := [.cycle 0 0] }
  if !w.getLsbD 63 && privileged (opField w) then s1.writePhysN s.placedBase (wordBytes w) false
  else
    { s1.writePhysN placedPc (wordBytes w) false with
      blocks := aput 0 placedBlock s1.blocks, grids := aput (gridKey 0 1) placedGrid s1.grids,
      groups := aput 256 placedGroup (amod 0 (fun (g : Group) => { g with wait := .halt }) s1.groups) }

end Sys2Proof.Machine
end

