-- ==== Sys2Proof/Machine/Flags.lean ====
section
/-! DEFINITION. The flag and mode registers (R111 to R113): the flags that lanes raise, the ARITH trap and the merge into
FPFLAGS or slot 1's held flags. -/
namespace Sys2Proof.Machine

/-- Flags in the FPFLAGS layout (R111): NV, DZ, OF, UF, NX from bit 0. -/
abbrev Flags := BitVec 5
/-- Invalid. -/
def fNV : Flags := 1
/-- Divide-by-zero. -/
def fDZ : Flags := 2
/-- Overflow. -/
def fOF : Flags := 4
/-- Underflow. -/
def fUF : Flags := 8
/-- Inexact. -/
def fNX : Flags := 16

/-- The OR of the flags of the lanes of m. -/
def orFlagsOf (m : Mask) (f : Nat → Flags) : Flags := (Mask.toLanes m).foldl (fun x l => x ||| f l) 0
/-- T of R113: the ACTIVE lanes whose flags include one enabled in FPMODE. -/
def trapLanes (g : Group) (m : Mask) (f : Nat → Flags) : Mask :=
  maskOf (fun l => m.getLsbD l && (f l &&& g.fpmode.truncate 5) != 0)
/-- The ARITH trap of flags (R113, R295). -/
def arithTrap (flags : Flags) (lanes : Mask) : Trap := trap0 9 (flags.zeroExtend 32) lanes
/-- The flags of a floating word (R112, R113): the trap where one is enabled, else the merge. A uniform destination makes
one computation, and its trap names all of ACTIVE. -/
def commitFlags (g : Group) (slot1 ud : Bool) (m : Mask) (f : Nat → Flags) : Res Group :=
  if ud then
    let x := f (lowLane m)
    if (x &&& g.fpmode.truncate 5) != 0 then .error (.trap (arithTrap x m)) else .ok (g.orFlags slot1 x)
  else
    let t := trapLanes g m f
    if t = 0 then .ok (g.orFlags slot1 (orFlagsOf m f)) else .error (.trap (arithTrap (orFlagsOf t f) t))

end Sys2Proof.Machine
end

