-- ==== Sys2Proof/Machine/Float.lean ====
section
/-! DEFINITION. Floating formats (R105, R106), exact values, rounding (R109, R110) and the exact operations that the floating
words round (R118 to R125). Encodings are natural numbers below 2^width. -/
namespace Sys2Proof.Machine

/-! ## Formats and values -/

/-- A floating format (R105): exponent and fraction widths, bias, and whether it is E4M3, which has no infinity. -/
structure Fmt where
  ew : Nat
  mw : Nat
  bias : Nat
  noInf : Bool
deriving DecidableEq, Repr
def f64 : Fmt := { ew := 11, mw := 52, bias := 1023, noInf := false }
def f32 : Fmt := { ew := 8, mw := 23, bias := 127, noInf := false }
def f16 : Fmt := { ew := 5, mw := 10, bias := 15, noInf := false }
def bf16 : Fmt := { ew := 8, mw := 7, bias := 127, noInf := false }
def e4m3 : Fmt := { ew := 4, mw := 3, bias := 7, noInf := true }
def e5m2 : Fmt := { ew := 5, mw := 2, bias := 15, noInf := false }
/-- The width of a format. -/
def Fmt.width (f : Fmt) : Nat := f.ew + f.mw + 1
/-- Whether a format has signalling NaNs (R106). -/
def Fmt.hasSig (f : Fmt) : Bool := 8 < f.width
/-- The sign bit's weight. -/
def Fmt.signBit (f : Fmt) : Nat := 2 ^ (f.ew + f.mw)
/-- The all-ones exponent field in place. -/
def Fmt.expOnes (f : Fmt) : Nat := (2 ^ f.ew - 1) * 2 ^ f.mw
/-- The canonical NaN (R105). -/
def Fmt.nan (f : Fmt) : Nat := if f.noInf then 0x7F else f.expOnes + 2 ^ (f.mw - 1)
/-- The largest finite magnitude's encoding. -/
def Fmt.maxEnc (f : Fmt) : Nat := if f.noInf then 0x7E else f.expOnes - 1
/-- The encoding of ±x for the encoding x of a magnitude. -/
def Fmt.signed (f : Fmt) (neg : Bool) (x : Nat) : Nat := if neg then x + f.signBit else x
/-- The encoding of an infinity: the canonical NaN where the format has none. -/
def Fmt.inf (f : Fmt) (neg : Bool) : Nat := if f.noInf then f.nan else f.signed neg f.expOnes
/-- The exponent of the minimum normal. -/
def Fmt.emin (f : Fmt) : Int := 1 - (f.bias : Int)
/-- The encoding of 1. -/
def Fmt.one (f : Fmt) : Nat := f.bias * 2 ^ f.mw

/-- An exact value, or a magnitude known to lie strictly between m × 2^e and (m + 1) × 2^e (`more`). The finite value with
m = 0 is a zero with its sign. -/
inductive Ex where
  | nan (sig : Bool)
  | inf (neg : Bool)
  | fin (neg : Bool) (m : Nat) (e : Int) (more : Bool)
deriving DecidableEq, Repr
/-- The value of an encoding (R105, R106). -/
def Fmt.dec (f : Fmt) (x : Nat) : Ex :=
  let neg := x / f.signBit % 2 == 1
  let e := x / 2 ^ f.mw % 2 ^ f.ew
  let m := x % 2 ^ f.mw
  if f.noInf && e == 2 ^ f.ew - 1 && m == 2 ^ f.mw - 1 then .nan false
  else if !f.noInf && e == 2 ^ f.ew - 1 then
    if m = 0 then .inf neg else .nan (f.hasSig && m / 2 ^ (f.mw - 1) == 0)
  else if e = 0 then .fin neg m (f.emin - f.mw) false
  else .fin neg (m + 2 ^ f.mw) ((e : Int) - f.bias - f.mw) false
/-- A source modifier on an encoding (R36): the sign cleared, then inverted. -/
def Fmt.modify (f : Fmt) (n a : Bool) (x : Nat) : Nat :=
  let y := if a then x % f.signBit else x
  if n then (if y / f.signBit % 2 = 1 then y - f.signBit else y + f.signBit) else y
/-- Whether the value is a zero. -/
def Ex.isZero : Ex → Bool
  | .fin _ m _ more => m == 0 && !more
  | _ => false
/-- Whether the value is a NaN. -/
def Ex.isNan : Ex → Bool
  | .nan _ => true
  | _ => false
/-- NV for a signalling NaN (R106). -/
def Ex.sigFlag : Ex → Flags
  | .nan true => fNV
  | _ => 0
/-- The value times 2^k. -/
def Ex.scale (k : Int) : Ex → Ex
  | .fin n m e more => .fin n m (e + k) more
  | x => x
/-- The value of an integer; zero is +0. -/
def Ex.ofInt (z : Int) : Ex := .fin (z < 0) z.natAbs 0 false
/-- The sign of a value that is no NaN. -/
def Ex.neg : Ex → Bool
  | .nan _ => false
  | .inf n => n
  | .fin n _ _ _ => n

/-! ## Rounding -/

/-- Rounding modes by RM: 0 RN, 1 RZ, 2 RD, 3 RU, 4 SR. -/
abbrev RM := Nat
/-- Whether a magnitude n + rem/2^k (with `more` beyond) rounds away from zero. -/
def roundsUp (rm : RM) (neg : Bool) (n rem k : Nat) (more : Bool) (rbits : Nat) : Bool :=
  match rm with
  | 0 => decide (2 ^ k < 2 * rem) || (2 * rem == 2 ^ k && (more || n % 2 == 1))
  | 1 => false
  | 2 => neg && (rem != 0 || more)
  | 3 => !neg && (rem != 0 || more)
  | _ => decide (rbits < 2 ^ 32 * rem / 2 ^ k)
/-- A magnitude rounded to a multiple of 2^q: the multiple, and whether it is inexact. -/
def roundAt (rm : RM) (neg : Bool) (m : Nat) (e : Int) (more : Bool) (rbits : Nat) (q : Int) : Nat × Bool :=
  if q ≤ e then (m * 2 ^ (e - q).toNat, more)
  else
    let k := (q - e).toNat
    let n := m / 2 ^ k
    let rem := m % 2 ^ k
    (if roundsUp rm neg n rem k more rbits then n + 1 else n, rem != 0 || more)
/-- The result on overflow (R109). -/
def overflowEnc (f : Fmt) (rm : RM) (neg : Bool) : Nat :=
  match rm with
  | 1 => f.signed neg f.maxEnc
  | 2 => if neg then f.inf true else f.maxEnc
  | 3 => if neg then f.signed true f.maxEnc else f.inf false
  | _ => f.inf neg
/-- RoundTo (R7, R109, R110, R130): the encoding and the flags. `sat` applies the format's saturation rule. -/
def roundTo (f : Fmt) (x : Ex) (rm : RM) (sat : Bool) (rbits : Nat) : Nat × Flags :=
  match x with
  | .nan s => (f.nan, if s then fNV else 0)
  | .inf n => if sat then (f.signed n f.maxEnc, 0) else if f.noInf then (f.nan, fNV) else (f.inf n, 0)
  | .fin neg m e more =>
    if m = 0 then (f.signed neg 0, 0)
    else
      let top : Int := (Nat.log2 m : Int) + e
      let q : Int := max (top - f.mw) (f.emin - f.mw)
      let (n0, inexact) := roundAt rm neg m e more rbits q
      let (n, q) := if n0 = 2 ^ (f.mw + 1) then (2 ^ f.mw, q + 1) else (n0, q)
      let field : Int := q + f.mw + f.bias
      let enc : Nat := if n < 2 ^ f.mw then n else field.toNat * 2 ^ f.mw + (n - 2 ^ f.mw)
      if f.maxEnc < enc then
        (if sat then f.signed neg f.maxEnc else overflowEnc f rm neg, fOF ||| fNX)
      else (f.signed neg enc, if inexact then (if top < f.emin then fUF ||| fNX else fNX) else 0)

/-! ## Exact operations: the value and the flags of the operation itself -/

/-- The result NaN of an operation on NaN operands: canonical, NV where one signals. -/
def nanOf (l : List Ex) : Ex × Flags := (.nan false, l.foldl (fun f x => f ||| x.sigFlag) 0)
/-- The finite sum. -/
def addFin (rm : RM) (n1 : Bool) (m1 : Nat) (e1 : Int) (n2 : Bool) (m2 : Nat) (e2 : Int) : Ex :=
  if m1 = 0 ∧ m2 = 0 then .fin (if n1 = n2 then n1 else rm == 2) 0 0 false
  else
    let e := min e1 e2
    let z1 : Int := (m1 * 2 ^ (e1 - e).toNat : Nat)
    let z2 : Int := (m2 * 2 ^ (e2 - e).toNat : Nat)
    let z := (if n1 then -z1 else z1) + (if n2 then -z2 else z2)
    if z = 0 then .fin (rm == 2) 0 0 false else .fin (z < 0) z.natAbs e false
/-- a + b, of values that are no NaN or any: the zero rules are R109's. -/
def exAdd (rm : RM) (a b : Ex) : Ex × Flags :=
  match a, b with
  | .fin n1 m1 e1 _, .fin n2 m2 e2 _ => (addFin rm n1 m1 e1 n2 m2 e2, 0)
  | .inf n1, .inf n2 => if n1 = n2 then (.inf n1, 0) else (.nan false, fNV)
  | .inf n, .fin _ _ _ _ => (.inf n, 0)
  | .fin _ _ _ _, .inf n => (.inf n, 0)
  | a, b => nanOf [a, b]
/-- a × b. -/
def exMul (a b : Ex) : Ex × Flags :=
  match a, b with
  | .fin n1 m1 e1 _, .fin n2 m2 e2 _ => (.fin (n1 != n2) (m1 * m2) (e1 + e2) false, 0)
  | .inf n1, .inf n2 => (.inf (n1 != n2), 0)
  | .inf n1, .fin n2 m2 _ _ => if m2 = 0 then (.nan false, fNV) else (.inf (n1 != n2), 0)
  | .fin n1 m1 _ _, .inf n2 => if m1 = 0 then (.nan false, fNV) else (.inf (n1 != n2), 0)
  | a, b => nanOf [a, b]
/-- a × b + c: the product's own invalid stands even where c is a quiet NaN (R119). -/
def exFma (rm : RM) (a b c : Ex) : Ex × Flags :=
  let p := exMul a b
  let q := exAdd rm p.1 c
  (q.1, p.2 ||| q.2)
/-- A quotient of finite magnitudes with at least `bits` significant bits. -/
def divFin (bits : Nat) (neg : Bool) (m1 : Nat) (e1 : Int) (m2 : Nat) (e2 : Int) : Ex :=
  if m1 = 0 then .fin neg 0 0 false
  else
    let s := bits + 1 + Nat.log2 m2 - Nat.log2 m1
    let n := m1 * 2 ^ s
    .fin neg (n / m2) (e1 - e2 - s) (n % m2 != 0)
/-- a / b (R123). -/
def exDiv (bits : Nat) (a b : Ex) : Ex × Flags :=
  match a, b with
  | .fin n1 m1 e1 _, .fin n2 m2 e2 _ =>
    if m2 = 0 then (if m1 = 0 then (.nan false, fNV) else (.inf (n1 != n2), fDZ))
    else (divFin bits (n1 != n2) m1 e1 m2 e2, 0)
  | .inf _, .inf _ => (.nan false, fNV)
  | .inf n1, .fin n2 _ _ _ => (.inf (n1 != n2), 0)
  | .fin n1 _ _ _, .inf n2 => (.fin (n1 != n2) 0 0 false, 0)
  | a, b => nanOf [a, b]
/-- The integer square root of a number below 4^k. -/
def isqrt (k n : Nat) : Nat :=
  (List.range k).foldl (fun r j => if (r + 2 ^ (k - 1 - j)) * (r + 2 ^ (k - 1 - j)) ≤ n then r + 2 ^ (k - 1 - j) else r) 0
/-- √a (R123). -/
def exSqrt (bits : Nat) (a : Ex) : Ex × Flags :=
  match a with
  | .nan _ => nanOf [a]
  | .inf n => if n then (.nan false, fNV) else (a, 0)
  | .fin n m e _ =>
    if m = 0 then (a, 0)
    else if n then (.nan false, fNV)
    else
      let odd := e % 2 == 1
      let m1 := if odd then 2 * m else m
      let e1 := if odd then e - 1 else e
      let x := m1 * 4 ^ bits
      let r := isqrt (Nat.log2 x / 2 + 1) x
      (.fin false r (e1 / 2 - bits) (r * r != x), 0)
/-- 1 / √a (R123). -/
def exRsqrt (bits : Nat) (a : Ex) : Ex × Flags :=
  match a with
  | .nan _ => nanOf [a]
  | .inf n => if n then (.nan false, fNV) else (.fin false 0 0 false, 0)
  | .fin n m e _ =>
    if m = 0 then (.inf n, fDZ)
    else if n then (.nan false, fNV)
    else
      let odd := e % 2 == 1
      let m1 := if odd then 2 * m else m
      let e1 := if odd then e - 1 else e
      let k := bits + Nat.log2 m1
      let x := 4 ^ k / m1
      let r := isqrt (Nat.log2 x / 2 + 1) x
      (.fin false r (-(k : Int) - e1 / 2) (r * r * m1 != 4 ^ k), 0)

/-! ## Comparison and classes -/

/-- The order of R121 among values that are no NaN, as (sign, magnitude): whether a lies before b. -/
def exLess (a b : Ex) : Bool :=
  let mag (x : Ex) (y : Ex) : Ordering :=
    match x, y with
    | .inf _, .inf _ => .eq
    | .inf _, _ => .gt
    | _, .inf _ => .lt
    | .fin _ m1 e1 _, .fin _ m2 e2 _ =>
      let e := min e1 e2
      compare (m1 * 2 ^ (e1 - e).toNat) (m2 * 2 ^ (e2 - e).toNat)
    | _, _ => .eq
  match a.neg, b.neg with
  | true, false => true
  | false, true => false
  | false, false => mag a b == .lt
  | true, true => mag a b == .gt
/-- Numerical equality, in which the zeros are equal. -/
def exEq (a b : Ex) : Bool := (a.isZero && b.isZero) || (!exLess a b && !exLess b a)
/-- The encoding and flags of FMIN and FMAX and their kin (R121). -/
def minMax (f : Fmt) (isMax : Bool) (x y : Nat) : Nat × Flags :=
  let a := f.dec x
  let b := f.dec y
  let fl := a.sigFlag ||| b.sigFlag
  if a.isNan && b.isNan then (f.nan, fl)
  else if a.isNan then (y, fl)
  else if b.isNan then (x, fl)
  else ((if isMax then (if exLess a b then y else x) else (if exLess b a then y else x)), fl)
/-- A condition of R122 and its flags. -/
def cmpHolds (cc : Nat) (a b : Ex) : Bool × Flags :=
  let un := a.isNan || b.isNan
  let lt := exLess a b && !(a.isZero && b.isZero)
  let gt := exLess b a && !(a.isZero && b.isZero)
  let sig := a.sigFlag ||| b.sigFlag
  let quiet := if un then fNV else 0
  match cc with
  | 0 => (!un && exEq a b, sig)
  | 1 => (un || !exEq a b, sig)
  | 2 => (!un && lt, quiet)
  | 3 => (!un && !gt, quiet)
  | 4 => (!un && gt, quiet)
  | 5 => (!un && !lt, quiet)
  | 6 => (!un, sig)
  | _ => (un, sig)
/-- The class bit of FCLASS (R124). -/
def classBit (f : Fmt) (x : Nat) : Nat :=
  match f.dec x with
  | .nan s => if s then 8 else 9
  | .inf n => if n then 0 else 7
  | .fin n m _ _ =>
    if m = 0 then (if n then 3 else 4)
    else if m < 2 ^ f.mw then (if n then 2 else 5)
    else if n then 1 else 6
/-- FRND (R125). -/
def frndEnc (f : Fmt) (rm : RM) (x : Nat) : Nat × Flags :=
  match f.dec x with
  | .fin n m e more =>
    let k := (roundAt rm n m e more 0 0).1
    if e ≥ 0 then (x, 0) else ((roundTo f (.fin n k 0 false) 0 false 0).1, 0)
  | .nan s => (f.nan, if s then fNV else 0)
  | .inf _ => (x, 0)

/-! ## The functions of R119: fixed-point numbers with `fx` fractional bits -/

/-- Fractional bits of the fixed-point numbers. -/
def fx : Nat := 448
/-- The sum of the first n terms of a series, each got from the last: term i is t, and the next is f i t. -/
def series (n i : Nat) (f : Nat → Int → Int) (t : Int) : Int :=
  match n with
  | 0 => 0
  | n + 1 => t + series n (i + 1) f (f i t)
/-- The sum of x^(2i+1) / ((2i+1) d^(2i+1)) with the sign s^i, for x = 1: arctangent (s = −1) or its hyperbolic kin of 1/d. -/
def atanInv (s : Int) (d : Nat) : Int :=
  ((List.range 150).map (fun i => s ^ i * ((2 ^ (fx + 32) / ((2 * i + 1) * d ^ (2 * i + 1)) : Nat) : Int))).sum / 2 ^ 32
/-- π, by Machin's formula. -/
def fxPi : Int := 16 * atanInv (-1) 5 - 4 * atanInv (-1) 239
/-- ln 2. -/
def fxLn2 : Int := 2 * atanInv 1 3
/-- The product of two fixed-point numbers. -/
def fxMul (a b : Int) : Int := a * b / 2 ^ fx
/-- e^x for 0 ≤ x < 1. -/
def fxExp (x : Int) : Int := series 120 0 (fun i t => fxMul t x / (i + 1)) (2 ^ fx)
/-- sin x for 0 ≤ x < 2. -/
def fxSin (x : Int) : Int := series 90 0 (fun i t => -(fxMul (fxMul t x) x) / ((2 * i + 2) * (2 * i + 3))) x
/-- cos x for 0 ≤ x < 2. -/
def fxCos (x : Int) : Int := series 90 0 (fun i t => -(fxMul (fxMul t x) x) / ((2 * i + 1) * (2 * i + 2))) (2 ^ fx)
/-- ln x for 1 ≤ x < 2. -/
def fxLn (x : Int) : Int :=
  let one : Int := 2 ^ fx
  let y := (x - one) * one / (x + one)
  2 * ((List.range 150).foldl (fun (q : Int × Int) (i : Nat) => (q.1 + q.2 / (2 * i + 1), fxMul (fxMul q.2 y) y)) (0, y)).1
/-- A positive irrational result near the fixed-point number x. -/
def exFx (neg : Bool) (x : Int) (k : Int) : Ex := .fin neg x.toNat (k - fx) true
/-- The value just above (or just below) m × 2^e. -/
def justBy (neg above : Bool) (m : Nat) (e : Int) : Ex :=
  if above then .fin neg (m * 2 ^ 64) (e - 64) true else .fin neg (m * 2 ^ 64 - 1) (e - 64) true
/-- The fixed-point number m × 2^e, for a value below 2^64. -/
def fxOf (m : Nat) (e : Int) : Int :=
  if 0 ≤ e + fx then ((m * 2 ^ (e + fx).toNat : Nat) : Int) else ((m / 2 ^ (-(e + fx)).toNat : Nat) : Int)
/-- Whether m × 2^e lies below 2^t. -/
def below (m : Nat) (e t : Int) : Bool := (Nat.log2 m : Int) + e < t
/-- 2^a. -/
def exExp2 (a : Ex) : Ex × Flags :=
  match a with
  | .nan _ => nanOf [a]
  | .inf n => (if n then .fin false 0 0 false else .inf false, 0)
  | .fin n m e _ =>
    if m = 0 then (.fin false 1 0 false, 0)
    else if !below m e 9 then (if n then .fin false 1 (-512) true else .fin false 1 512 false, 0)
    else if below m e (-40) then (justBy false (!n) 1 0, 0)
    else
      let x := if n then -(fxOf m e) else fxOf m e
      let i := x / 2 ^ fx
      let f := x - i * 2 ^ fx
      if f = 0 then (.fin false 1 i false, 0) else (exFx false (fxExp (fxMul f fxLn2)) i, 0)
/-- log2 a. The logarithm of 1 is +0 (DESIGN CHOICE, log 61: R123 gives that zero no sign). -/
def exLog2 (a : Ex) : Ex × Flags :=
  match a with
  | .nan _ => nanOf [a]
  | .inf n => if n then (.nan false, fNV) else (.inf false, 0)
  | .fin n m e _ =>
    if m = 0 then (.inf true, fDZ)
    else if n then (.nan false, fNV)
    else
      let k := Nat.log2 m
      let i : Int := k + e
      if m = 2 ^ k then (Ex.ofInt i, 0)
      else
        let y := i * 2 ^ fx + fxLn (fxOf m (-(k : Int))) * 2 ^ fx / fxLn2
        (if y < 0 then exFx true (-y - 1) 0 else exFx false y 0, 0)
/-- The sine, or the cosine, of π × t/2^k for 0 ≤ t < 2^(k+1) and k ≥ 1: sign and magnitude, where 2t is no multiple of 2^k. -/
def trigPi (cosine : Bool) (t k : Nat) : Bool × Int :=
  let half := 2 ^ (k - 1)
  let quad := t / half
  let r := t % half
  let x := fxMul (fxOf r (-(k : Int))) fxPi
  let (s, c) := (fxSin x, fxCos x)
  if cosine then
    match quad with
    | 0 => (false, c)
    | 1 => (true, s)
    | 2 => (true, c)
    | _ => (false, s)
  else
    match quad with
    | 0 => (false, s)
    | 1 => (false, c)
    | 2 => (true, s)
    | _ => (true, c)
/-- sin(π a). -/
def exSinPi (a : Ex) : Ex × Flags :=
  match a with
  | .nan _ => nanOf [a]
  | .inf _ => (.nan false, fNV)
  | .fin n m e _ =>
    if m = 0 ∨ 0 ≤ e then (.fin n 0 0 false, 0)
    else
      let k := (-e).toNat
      let t := m % 2 ^ (k + 1)
      if t % 2 ^ k = 0 then (.fin n 0 0 false, 0)
      else if 2 * t % 2 ^ k = 0 then (.fin (n != decide (2 ^ k < t)) 1 0 false, 0)
      else
        let r := trigPi false t k
        (exFx (n != r.1) r.2 0, 0)
/-- cos(π a). -/
def exCosPi (a : Ex) : Ex × Flags :=
  match a with
  | .nan _ => nanOf [a]
  | .inf _ => (.nan false, fNV)
  | .fin _ m e _ =>
    if m = 0 ∨ 1 ≤ e then (.fin false 1 0 false, 0)
    else if e = 0 then (.fin (m % 2 == 1) 1 0 false, 0)
    else
      let k := (-e).toNat
      let t := m % 2 ^ (k + 1)
      if t % 2 ^ k = 0 then (.fin (t != 0) 1 0 false, 0)
      else if 2 * t % 2 ^ k = 0 then (.fin false 0 0 false, 0)
      else if below m e (-40) then (justBy false false 1 0, 0)
      else
        let r := trigPi true t k
        (exFx r.1 r.2 0, 0)
/-- tanh a. A zero keeps its sign (DESIGN CHOICE, log 61: R123 gives that zero no sign). -/
def exTanh (a : Ex) : Ex × Flags :=
  match a with
  | .nan _ => nanOf [a]
  | .inf n => (.fin n 1 0 false, 0)
  | .fin n m e _ =>
    if m = 0 then (a, 0)
    else if below m e (-20) then (justBy n false m e, 0)
    else if !below m e 6 then (justBy n false 1 0, 0)
    else
      let x := 2 * fxOf m e * 2 ^ fx / fxLn2
      let i := x / 2 ^ fx
      let big := fxExp (fxMul (x - i * 2 ^ fx) fxLn2) * 2 ^ i.toNat
      (exFx n ((big - 2 ^ fx) * 2 ^ fx / (big + 2 ^ fx)) 0, 0)

end Sys2Proof.Machine
end

