-- ==== Sys2Proof/Machine/Cache.lean ====
section
/-! DEFINITION. The core's L1 and read-only path (R140, R150), the last-level cache's host lines (R183, R184), the links
(R146, R160, R186), publish and refresh (R160 to R162), and the bytes that an access of one sector reads or writes. -/
namespace Sys2Proof.Machine

/-- The key of a byte in a core's caches: ASID and virtual address (R140). -/
def lkey (asid va : Nat) : Nat := asid * 2 ^ 57 + va % 2 ^ 57

/-! ## Links -/

/-- No core: an engine, the host or a peer. -/
def noCore : Nat := 1000
/-- The partition whose UALink ports a request uses (R21): its core's, or its context's where no core makes it. -/
def State.linkPart (s : State) (c : Nat) (ctxid : BitVec 16) : Nat :=
  if c = noCore then ((s.ctxCore ctxid).map (fun h => (s.core h).part)).getD 8 else (s.core c).part
/-- The ports of a partition that reach a chip (R21, R378): up, on its route, and in the partition's mask. -/
def State.portsTo (s : State) (p chip : Nat) : List Nat :=
  (List.range 16).filter (fun k => ((aval 0 chip s.routes) &&& s.portsUp &&& (s.part p).info.ports).getLsbD k)
/-- Whether a chip can be reached (R378). -/
def State.chipUp (s : State) (p chip : Nat) : Bool := !(s.portsTo p chip).isEmpty
/-- The port that a request to a chip takes: a hash of its address chooses among those that reach it (R378). -/
def State.portTo (s : State) (p chip : Nat) (addr : DWord) : Option Nat :=
  let l := s.portsTo p chip
  l[Config.portHash addr % l.length]?
/-- A posted write that failed is recorded against its context on the core (R186): the count and the oldest's address, kind and place. -/
def State.recordDeferred (s : State) (c : Nat) (ctxid : BitVec 16) (addr : DWord) (kind : Nat) : State :=
  { s with failSeq := s.failSeq + 1 }.modCore c (fun k => { k with deferred := match aget? ctxid.toNat k.deferred with
    | some d => aput ctxid.toNat { d with count := d.count + 1 } k.deferred
    | none => aput ctxid.toNat { count := 1, addr, kind, age := s.failSeq } k.deferred })
/-- Whether a request context may be used again (R379): its response has come, and 2 ms have passed since the last copy of a replayed
use. -/
def LinkCtx.free (x : LinkCtx) (now : DWord) : Bool := !x.busy && x.replayed.all (fun t => 2000000#64 ≤ now - t)
/-- The first of n numbers from k on for which f holds. -/
def findFrom (f : Nat → Bool) (n k : Nat) : Option Nat :=
  match n with
  | 0 => none
  | n + 1 => if f k then some k else findFrom f n (k + 1)
/-- The request context that a new request to a chip takes (DESIGN CHOICE, log 63): the lowest that is free and that no request waits for. -/
def State.newCtx (s : State) (chip : Nat) : Option Nat :=
  findFrom (fun k => (aget? (32768 * chip + k) s.linkCtxs).all (fun x => x.free s.tick) &&
    s.ctxWait.all (fun e => !(e.2.1 == chip && e.1 % 32768 == k))) 32768 0
/-- The generation of a request context's next use (R379): the inverse of its latest use's, or of the latest that waits for it. -/
def State.nextGen (s : State) (chip k : Nat) : Nat :=
  let waits := s.ctxWait.filter (fun e => e.2.1 == chip && e.1 % 32768 == k)
  match waits.getLast? with
  | some e => 1 - e.1 / 32768 % 2
  | none => match aget? (32768 * chip + k) s.linkCtxs with
    | some x => 1 - x.tag / 32768 % 2
    | none => 0
/-- A request leaves on a link and awaits its response (R146). A request to a chip takes a request context, whose generation inverts
(R379). With all 32,768 in use it waits for one of them to come free, spread by the number of the request (DESIGN CHOICE, log 63). -/
def State.newRequest (s : State) (r : Request) : State × Nat :=
  match r.chip with
  | none => ({ s with requests := aput (65536 * s.nextTag) r s.requests, nextTag := s.nextTag + 1 }, 65536 * s.nextTag)
  | some chip =>
    let s1 : State := { s with nextTag := s.nextTag + 1 }
    match s.newCtx chip with
    | some k =>
      let tag := 65536 * s.nextTag + 32768 * s.nextGen chip k + k
      ({ s1 with requests := aput tag r s.requests, linkCtxs := aput (32768 * chip + k) { tag, busy := true, replayed := none } s.linkCtxs }, tag)
    | none =>
      let k := s.nextTag % 32768
      let tag := 65536 * s.nextTag + 32768 * s.nextGen chip k + k
      ({ s1 with requests := aput tag r s.requests, ctxWait := aput tag (chip, none) s.ctxWait }, tag)
/-- The response of a tag's use has come (R379). -/
def State.freeCtx (s : State) (chip : Option Nat) (tag : Nat) : State :=
  match chip with
  | none => s
  | some c =>
    let f (x : LinkCtx) : LinkCtx := if x.tag = tag then { x with busy := false } else x
    { s with linkCtxs := amod (32768 * c + tag % 32768) f s.linkCtxs }
/-- A copy of a tag's use is sent again (R379). -/
def State.copySent (s : State) (chip : Option Nat) (tag : Nat) : State :=
  match chip with
  | none => s
  | some c =>
    let f (x : LinkCtx) : LinkCtx := if x.tag = tag then { x with replayed := some s.tick } else x
    { s with linkCtxs := amod (32768 * c + tag % 32768) f s.linkCtxs }
/-- The blank of a request. -/
def blankRequest (kind : ReqKind) (core : Nat) (ctxid : BitVec 16) (t : Target) (addr now : DWord) : Request :=
  { kind, core, ctxid, key := 0, target := t, port := none, addr, issued := now, op := none, l1 := none, ro := none, llc := none, own := false,
    acts := [] }
/-- The host physical address of an address of the host window (R318). -/
def hostPa (pa : Nat) : DWord := BitVec.ofNat 64 (pa % 2 ^ 51)
/-- A posted write of bytes to host or peer memory (R160, R186), behind which a read of no bytes goes to a non-coherent page (R184); on
a link that is down it fails at once, kind 3. The request's key is the partition that makes it. -/
def State.post (s : State) (c : Nat) (ctxid : BitVec 16) (va : DWord) (t : Target) (bytes : List Byte)
    (poison : Bool) (op : Option (Nat × Nat)) : State :=
  let rq : Request := { blankRequest .posted c ctxid t va s.tick with op, key := s.linkPart c ctxid }
  match t with
  | .dev _ => s
  | .host pa coh =>
    if s.hostUp then
      let r := s.newRequest rq
      let s1 := r.1.send (.write r.2 none (hostPa pa) bytes poison)
      if coh then s1 else s1.send (.read r.2 none (hostPa pa) 0)
    else s.recordDeferred c ctxid va 3
  | .peer chip x rva =>
    let p := s.linkPart c ctxid
    if chip = s.chip then (s.recordDeferred c ctxid va 1).inboundFault x (s.ownKind x rva true) rva
    else if s.chipUp p chip then
      let r := s.newRequest { rq with port := s.portTo p chip rva }
      r.1.send (.write r.2 (some (chip, x.toNat)) rva bytes poison)
    else s.recordDeferred c ctxid va 3

/-! ## Bytes at the point of coherence -/

/-- Bytes with offsets, ascending, as runs of adjacent bytes: the first offset and the bytes. -/
def byteRuns (l : List (Nat × Byte)) : List (Nat × List Byte) :=
  l.foldr (fun (q : Nat × Byte) (acc : List (Nat × List Byte)) => match acc with
    | (o, b) :: t => if q.1 + 1 = o then (q.1, q.2 :: b) :: t else (q.1, [q.2]) :: (o, b) :: t
    | [] => [(q.1, [q.2])]) []
/-- Another agent's access of a sector of device memory that a core owns for its stash: the owner drops the sector (R139). The
agents of a core that is not in the device are the engines, the host and the peers. -/
def State.recall (s : State) (c pa : Nat) : State :=
  { s with blocks := s.blocks.map (fun (e : Nat × Block) =>
      if e.2.core == c then e
      else (e.1, { e.2 with stashFilled := e.2.stashFilled.filter (fun q => q.2.1 / 64 != pa / 64) })) }
/-! ## The last-level cache (R12, R140, R328) -/

/-- The host bytes of one line of the last-level cache leave for the host (R153, R184): its dirty bytes, sector by sector, under the
context of its tag; its bytes are then clean. -/
def State.hostLineWb (s : State) (c line : Nat) : State :=
  let dirty := s.llcHost.filter (fun e => e.1 / 256 == line && e.2.2)
  let tag := aval { part := 8, asid := 0, va := 0, bits := 12, glob := false, ctxid := 0, coh := false } line s.llcTag
  let s1 := (List.range 4).foldl (fun s k =>
    (byteRuns ((dirty.filter (fun e => e.1 % 256 / 64 == k)).map (fun e => (e.1, e.2.1)))).foldl (fun s q =>
      s.post c tag.ctxid (canon57 (256 * tag.va + q.1 % 256)) (.host q.1 tag.coh) q.2 (s.memPoison.contains (q.1 / 64)) none) s) s
  { s1 with llcHost := dirty.foldl (fun m e => aput e.1 (e.2.1, false) m) s1.llcHost }
/-- Lines of the last-level cache are gone, with the poison and the ownership of their host sectors. -/
def State.dropLines (s : State) (f : Nat → Bool) : State :=
  { s with llcHost := s.llcHost.filter (fun e => !f (e.1 / 256)), llcTag := s.llcTag.filter (fun e => !f e.1),
           llcOwned := s.llcOwned.filter (fun q => !f (q / 4)),
           memPoison := s.memPoison.filter (fun q => 64 * q < hostBase || !f (q / 4)) }
/-- The last-level cache holds a line under a tag (R140): one line for a physical line, whose tag a later fill moves (R328), and in
256 MiB at most 2^20 lines (R12), of which the lowest physical line leaves first (DESIGN CHOICE, log 62). -/
def State.tagLine (s : State) (c : Nat) (pa : Nat) (t : LineTag) : State :=
  let s1 := if (aget? (pa / 256) s.llcTag).isNone && 1048576 ≤ s.llcTag.length then
      match s.llcTag with
      | old :: _ => (s.hostLineWb c old.1).dropLines (fun l => l == old.1)
      | [] => s
    else s
  { s1 with llcTag := aput (pa / 256) t s1.llcTag }
/-- The tag of an access through a permission entry; none where its page is not cacheable (R141). -/
def PermEntry.tag (e : PermEntry) (part asid : Nat) (sva : DWord) (coh : Bool) : Option LineTag :=
  if e.c then some { part, asid, va := va57 sva / 256, bits := e.bits, glob := e.glob, ctxid := e.ctxid, coh } else none
/-- The tag of the line that an access of a sector through a permission entry holds (R323, R333): under the ASID of the access, and for a
member on this chip under the member's ASID and address. -/
def State.lineTag (s : State) (c asid : Nat) (e : PermEntry) (t : Target) (sva : DWord) : Option LineTag :=
  match e.stripe, t with
  | some (set, gran), .dev _ =>
    let m := s.memberOf (s.linkPart c e.ctxid) set gran e sva
    (s.inboundLeaf m.2.1 m.2.2 false).toOption.bind (fun x => x.tag (s.linkPart noCore m.2.1) x.asid m.2.2 false)
  | _, .host _ coh => e.tag (s.linkPart c e.ctxid) asid sva coh
  | _, _ => e.tag (s.linkPart c e.ctxid) asid sva false
/-- The line of a target is held under a tag, where there is one. -/
def State.holdLine (s : State) (c : Nat) (t : Target) (tag : Option LineTag) : State :=
  match t, tag with
  | .dev pa, some x => s.tagLine c pa x
  | .host pa _, some x => s.tagLine c pa x
  | _, _ => s
/-- A host line that the last-level cache already holds moves to the tag of another access (R328). -/
def State.moveLine (s : State) (c : Nat) (t : Target) (tag : Option LineTag) : State :=
  match t with
  | .host pa _ => if (aget? (pa / 256) s.llcTag).isSome then s.holdLine c t tag else s
  | _ => s.holdLine c t tag
/-- The parts of an access that a link has brought, or is bringing, from a sector are forgotten, so that its word asks again: a store that
the core has made there since is newer (R166 rule 3). The lanes of an atomic, whose numbers start at 2^58, keep their answers. -/
def Pend.forget (p : Pend) (f : Target → Bool) : Pend :=
  let gone : List Nat := (p.sent.filter (fun e => e.1 < 2 ^ 58 && f e.2)).map Prod.fst
  { waiting := p.waiting.filter (fun e => !gone.contains e.2), sent := p.sent.filter (fun e => !gone.contains e.1),
    landed := p.landed.filter (fun e => !gone.contains e.1), fails := p.fails }
/-- A store of a core leaves for a link: reads of the sector by the core's groups and operations that are under way ask again, and what
they bring is not kept. -/
def State.staleReads (s : State) (c : Nat) (t : Target) : State :=
  let hit (x : Target) : Bool := x == t
  let stale (p : Option Pend) : Option Pend := p.map (fun p => p.forget hit)
  { s with
    groups := s.groups.map (fun (e : Nat × Group) =>
      if e.2.core == c then (e.1, { e.2 with pend0 := stale e.2.pend0, pend1 := stale e.2.pend1 }) else e),
    cores := amod c (fun k => { k with ops := k.ops.map (fun o => { o with pend := o.pend.forget hit }) }) s.cores,
    requests := s.requests.map (fun (e : Nat × Request) =>
      if e.2.core == c && e.2.target == t && (e.2.kind == .load || e.2.kind == .prefetch) then
        (e.1, { e.2 with l1 := none, ro := none, llc := none }) else e) }
/-- A host line to which the last-level cache has stored becomes its own through CXL.cache (R183, R369): a request for it leaves unless the
line is owned or asked for already. Nothing waits for it but a publish. -/
def State.ownLine (s : State) (c : Nat) (ctxid : BitVec 16) (pa : Nat) (sva : DWord) (tag : Option LineTag) : State :=
  if s.llcOwned.contains (pa / 64) || !s.hostUp || s.requests.any (fun e => e.2.own && e.2.target == .host pa true) then s
  else
    let r := s.newRequest { blankRequest .own c ctxid (.host pa true) sva s.tick with key := s.linkPart c ctxid, llc := tag, own := true }
    r.1.send (.own r.2 (hostPa pa))
/-- Bytes stored at the target of a checked page, past L1 (R140, R160, R182): device memory, the last-level cache's host line
where the page is cacheable, or the link; a host line that the cache holds takes the bytes that pass it. `asid` is the ASID of the access
(R323). `mask` gives the bytes of the sector that the one write covers: pairs of offset in the sector and byte. -/
def State.storeSector (s : State) (c asid : Nat) (e : PermEntry) (t : Target) (sva : DWord) (mask : List (Nat × Byte))
    (poison : Bool) (op : Option (Nat × Nat) := none) : State :=
  match t with
  | .dev pa =>
    let s1 := mask.foldl (fun s q => s.writePhys (pa + q.1) q.2) ((s.recall c pa).holdLine c t (s.lineTag c asid e t sva))
    { s1 with memPoison := poisonAfter s1.memPoison [pa / 64] poison (fun _ => mask.length == 64) }
  | .host pa coh =>
    if e.c then
      let tag := s.lineTag c asid e t sva
      let s0 := s.holdLine c t tag
      let s1 := if coh then s0.ownLine c e.ctxid pa sva tag else s0
      { s1 with
        llcHost := mask.foldl (fun m q => aput (pa + q.1) (q.2, true) m) s1.llcHost,
        memPoison := poisonAfter s1.memPoison [pa / 64] poison (fun _ => mask.length == 64) }
    else
      let s0 := s.staleReads c t
      let s1 := { s0 with llcHost := mask.foldl (fun m q => amod (pa + q.1) (fun _ => (q.2, false)) m) s0.llcHost }
      (byteRuns mask).foldl (fun s q => s.post c e.ctxid (sva + BitVec.ofNat 64 q.1) (t.fwd q.1) q.2 poison op) s1
  | .peer _ _ _ =>
    (byteRuns mask).foldl (fun s q => s.post c e.ctxid (sva + BitVec.ofNat 64 q.1) (t.fwd q.1) q.2 poison op) (s.staleReads c t)

/-! ## L1 (R140) -/

/-- The identity by which a permission entry's page is reached again: its core's partition and its context (R325). -/
def State.whoEntry (s : State) (c : Nat) (e : PermEntry) : Who :=
  { core := c, part := (s.core c).part, asid := e.asid, root := 0, user := true, secure := false, ctxid := e.ctxid, ok := true }
/-- The dirty bytes of one L1 sector (key of its first byte), as offsets and bytes. -/
def Core.dirtyOf (k : Core) (sec : Nat) : List (Nat × Byte) :=
  (k.l1.filter (fun e => e.1 / 64 == sec && e.2.2)).map (fun e => (e.1 % 64, e.2.1))
/-- One L1 sector's dirty bytes with offsets in `keep` are written back as one write (R140, R147) and become clean. The page is
reached by the entry that the store's check used (R325). The write is poisoned where a poisoned store made its bytes; it clears the poison
of its sector where its mask is whole (R147), and L1's copy is then as poisoned as the sector that it went to. -/
def State.writeBackSector (s : State) (c sec : Nat) (keep : Nat → Bool) : State :=
  let k := s.core c
  let bytes := (k.dirtyOf sec).filter (fun q => keep q.1)
  if bytes.isEmpty then s
  else
    let asid := sec * 64 / 2 ^ 57
    let va := sec * 64 % 2 ^ 57
    let s1 := s.modCore c (fun k => { k with l1 := bytes.foldl (fun m q => aput (sec * 64 + q.1) (q.2, false) m) k.l1 })
    let poison := k.l1Own.contains sec
    let whole := bytes.length == 64
    match permFind k.perm asid va with
    | none => s1
    | some e =>
      let sva := canon57 va
      match s.targetOf (s.whoEntry c e) e sva true with
      | .ok t =>
        let s2 := s1.storeSector c asid e t sva bytes poison
        let bad := match t with
          | .dev pa => s2.memPoison.contains (pa / 64)
          | .host pa _ => if e.c then s2.memPoison.contains (pa / 64) else poison || (!whole && k.l1Poison.contains sec)
          | .peer _ _ _ => poison || (!whole && k.l1Poison.contains sec)
        s2.modCore c (fun k =>
          { k with l1Own := if (k.dirtyOf sec).isEmpty then setDel sec k.l1Own else k.l1Own,
                   l1Poison := if bad then setAdd sec k.l1Poison else setDel sec k.l1Poison })
      | .error _ => s1.recordDeferred c e.ctxid sva 1
/-- The sectors in which a core's L1 holds dirty bytes, ascending. -/
def Core.dirtySectors (k : Core) : List Nat := (k.l1.filter (fun e => e.2.2)).foldl (fun l e => setAdd (e.1 / 64) l) []
/-- Publish (R7, R160 step 2): every dirty byte of the core is written back. -/
def State.publish (s : State) (c : Nat) : State :=
  (s.core c).dirtySectors.foldl (fun s q => s.writeBackSector c q (fun _ => true)) s
/-- L1 bytes discarded: those that `gone` names by key, byte and dirtiness. Bytes that a link is still bringing for them do not enter L1
when they come (R161, R166 rule 4). -/
def State.discard (s : State) (c : Nat) (gone : Nat → Bool → Bool) : State :=
  let s1 := s.modCore c (fun k =>
    let l1 := k.l1.filter (fun e => !gone e.1 e.2.2)
    { k with l1, l1Poison := k.l1Poison.filter (fun q => l1.any (fun e => e.1 / 64 == q)),
             l1Own := k.l1Own.filter (fun q => l1.any (fun e => e.1 / 64 == q && e.2.2)) })
  { s1 with requests := s1.requests.map (fun (e : Nat × Request) =>
      if e.2.core == c && e.2.l1.any (fun sec => (List.range 64).any (fun j => gone (64 * sec + j) false)) then
        (e.1, { e.2 with l1 := none })
      else e) }
/-- Refresh (R7, R161 step 2): the core's clean bytes are discarded, its dirty bytes kept. -/
def State.refresh (s : State) (c : Nat) : State := s.discard c (fun _ dirty => !dirty)
/-- The bytes of L1 that f names discarded, clean or dirty. -/
def State.dropBytes (s : State) (c : Nat) (f : Nat → Bool) : State := s.discard c (fun k _ => f k)
/-- One line of L1 leaves, its dirty bytes written back first (R140). -/
def State.evictL1 (s : State) (c line : Nat) : State :=
  ((List.range 4).foldl (fun s q => s.writeBackSector c (4 * line + q) (fun _ => true)) s).dropBytes c (fun k => k / 256 == line)
/-- The lines of a sorted list of byte keys, each once. -/
def linesOf {α : Type} (l : List (Nat × α)) : List Nat :=
  (l.foldl (fun (acc : List Nat) e => if acc.head? == some (e.1 / 256) then acc else e.1 / 256 :: acc) []).reverse
/-- L1 holds 1,024 lines (R11): beyond them the lowest lines but those of the sectors just used are evicted (DESIGN CHOICE, log 62). -/
def State.trimL1 (s : State) (c : Nat) (secs : List Nat) : State :=
  let l1 := (s.core c).l1
  if l1.length ≤ 1024 then s
  else
    let lines := linesOf l1
    ((lines.filter (fun l => !secs.any (fun q => q / 4 == l))).take (lines.length - 1024)).foldl (fun s l => s.evictL1 c l) s
/-- The writeback of a page's dirty bytes (R325). -/
def State.writeBackPage (s : State) (c : Nat) (e : PermEntry) : State :=
  ((s.core c).dirtySectors.filter (fun q => (q * 64 / 2 ^ 57 == e.asid || e.glob) &&
    q * 64 % 2 ^ 57 / 2 ^ e.bits == e.va / 2 ^ e.bits)).foldl (fun s q => s.writeBackSector c q (fun _ => true)) s
/-- The permission cache's eviction of an entry (R325): its page's dirty bytes are written back first. -/
def State.evictPerm (s : State) (c : Nat) (e : PermEntry) : State :=
  (s.writeBackPage c e).modCore c (fun k => { k with perm := k.perm.erase e })
/-- A fill of the permission cache, which holds at most 512 entries (R143, R324, R325): the oldest leaves. -/
def State.fillPerm (s : State) (c : Nat) (e : PermEntry) : State :=
  if (s.core c).perm.contains e then s
  else
    let s1 := match (s.core c).perm with
      | old :: t => if t.length ≥ 511 then s.evictPerm c old else s
      | [] => s
    s1.modCore c (fun k => { k with perm := k.perm ++ [e] })
/-- The removal of the entry that decided a fault of kind WRITE, USER, WORLD, NOEXEC or NOREMOTE (R324), its dirty bytes
written back first (R325). -/
def State.dropPerm (s : State) (w : Who) (va : DWord) (kind : Nat) : State :=
  if [kWRITE, kUSER, kWORLD, kNOEXEC, kNOREMOTE].contains kind then
    match permFind (s.core w.core).perm w.asid (va57 va) with
    | some e => s.evictPerm w.core e
    | none => s
  else s

/-! ## Accesses within one sector -/

/-- The block of a core, and the stash granule, through which it maps the generic byte: such a byte is served by the stash,
which this model keeps at the point of coherence (R139; DESIGN CHOICE, log 13). -/
def State.stashServes (s : State) (c asid va : Nat) (t : Target) : Option (Nat × Nat) :=
  match t with
  | .dev _ => s.blocks.findSome? (fun e =>
      if e.2.core == c && e.2.asid.toNat == asid then
        (e.2.stash.find? (fun g => g.2.page == va / 4096 * 4096)).map (fun g => (e.1, g.1))
      else none)
  | _ => none
/-- A stash sector filled when it is absent (R139): its number in the block's stash area, its physical address, and the size in bits of
the page that maps it. The core's L1 gives up its copy of the sector, its dirty bytes written back first, so that each byte has one order
of writes. -/
def State.stashFill (s : State) (b sec pa bits : Nat) : State :=
  match aget? b s.blocks with
  | none => s
  | some k =>
    if (aget? sec k.stashFilled).isSome then s
    else
      let s1 := match aget? (sec / 64) k.stash with
        | some g =>
          let q := lkey k.asid.toNat (g.page + 64 * (sec % 64)) / 64
          (s.writeBackSector k.core q (fun _ => true)).dropBytes k.core (fun x => x / 64 == q)
        | none => s
      s1.modBlock b (fun k => { k with stashFilled := aput sec (pa, bits) k.stashFilled })
/-- How a load reads (R140, R141, R150, R161): through L1; past L1 and merged with its dirty bytes; at the point of coherence;
or through the read-only path. -/
inductive Via where
  | l1 | merge | poc | ro
deriving DecidableEq, Repr
/-- A sector that a link must bring: its target and address, and where the bytes are kept when they come (R140, R150, R169, R183). -/
structure Fetch where
  t : Target
  va : DWord
  l1 : Option Nat
  ro : Option Nat
  llc : Option LineTag
  own : Bool
deriving DecidableEq, Repr
/-- The number of a sector among the parts that a word awaits. -/
def Fetch.key (f : Fetch) : Nat := va57 f.va / 64
/-- What an access of one sector reaches: bytes with their poison, or a sector that its link must bring (R146). -/
inductive Reach where
  | bytes (s : State) (b : List Byte) (poison : Bool)
  | remote (s : State) (f : Fetch)
deriving DecidableEq, Repr
/-- The bytes that have come for part k of an access, where they came from the target that it now reaches (R337, R338). -/
def Pend.got (p : Pend) (k : Nat) (t : Target) : Option (List Byte × Bool) :=
  if aget? k p.sent = some t then aget? k p.landed else none
/-- The 64 bytes of a sector at its target, where the device holds them: device memory, a host line of the last-level cache,
or the part that a link has brought for this word, under the bytes of its line that the cache holds. -/
def State.sectorAt (s : State) (t : Target) (landed : Option (List Byte × Bool)) : Option (List Byte × Bool) :=
  match t with
  | .dev pa => some (s.readPhysN pa 64, s.memPoison.contains (pa / 64))
  | .host pa _ =>
    let p := s.memPoison.contains (pa / 64)
    let merge (b : List Byte) : List Byte := (List.range 64).map (fun k => (aval (b.getD k 0, false) (pa + k) s.llcHost).1)
    if (List.range 64).all (fun k => (aget? (pa + k) s.llcHost).isSome) then some (merge [], p)
    else landed.map (fun l => (merge l.1, l.2 || p))
  | .peer _ _ _ => landed
/-- A sector brought into L1 (R140): the bytes that are not dirty become the given ones, clean. `late` says that a link brings them for a
request made before: then the bytes that are valid stay, which the core may have written back since (R166 rule 3). -/
def Core.fillL1 (k : Core) (sec : Nat) (b : List Byte) (poison late : Bool) : Core :=
  { k with l1 := (List.range 64).foldl (fun m o =>
             match aget? (sec * 64 + o) m with
             | some (_, dirty) => if dirty || late then m else aput (sec * 64 + o) (b.getD o 0, false) m
             | none => aput (sec * 64 + o) (b.getD o 0, false) m) k.l1,
           l1Poison := if poison then setAdd sec k.l1Poison
             else if (k.dirtyOf sec).isEmpty && !late then setDel sec k.l1Poison else k.l1Poison }
/-- Whether L1 marks a sector poisoned: it came so, or a poisoned store has written it (R147). -/
def Core.badL1 (k : Core) (sec : Nat) : Bool := k.l1Poison.contains sec || k.l1Own.contains sec
/-- The read-only path cache holds 256 lines (R11): beyond them the lowest lines but those of the sectors just used leave (DESIGN CHOICE, log
62). -/
def Core.trimRo (k : Core) (secs : List Nat) : Core :=
  let lines := linesOf k.ro
  let gone := (lines.filter (fun l => !secs.any (fun q => q / 4 == l))).take (lines.length - 256)
  if lines.length ≤ 256 then k
  else { k with ro := k.ro.filter (fun e => !gone.contains (e.1 / 256)), roPoison := k.roPoison.filter (fun q => !gone.contains (q / 4)) }
/-- A sector brought into the read-only path cache (R150). -/
def Core.fillRo (k : Core) (sec : Nat) (b : List Byte) (poison : Bool) : Core :=
  { k with ro := (List.range 64).foldl (fun m o => aput (sec * 64 + o) (b.getD o 0) m) k.ro,
           roPoison := if poison then setAdd sec k.roPoison else setDel sec k.roPoison }
/-- Whether the sector at a target is poisoned at the point of coherence (R147). -/
def State.badAt (s : State) (t : Target) : Bool :=
  match t with
  | .dev pa => s.memPoison.contains (pa / 64)
  | .host pa _ => s.memPoison.contains (pa / 64)
  | .peer _ _ _ => false
/-- L1 and the read-only path cache hold no more than their lines once an access of sectors is over (R11). -/
def State.trimCaches (s : State) (c : Nat) (secs : List Nat) : State :=
  (if (s.core c).ro.length ≤ 256 then s else s.modCore c (fun k => k.trimRo secs)).trimL1 c secs
/-- A load of n bytes at offset o of a sector (R140, R141, R150, R161): `landed` are the bytes that a link has brought for it. A sector
that a link brought has entered L1, or the read-only path cache, when it came, so it is not filled again here. The poison of bytes of which
L1 holds some dirty is that of L1 and of the sector together, by whichever path they are read (R141, R147). -/
def State.loadSector (s0 : State) (c asid : Nat) (e : PermEntry) (t : Target) (sva o n : Nat) (via : Via)
    (landed : Option (List Byte × Bool)) : Reach :=
  let sec := lkey asid sva / 64
  let keys := (List.range n).map (fun k => sec * 64 + o + k)
  let own := s0.stashServes c asid sva t
  let s := match own, t with
    | some (b, g), .dev pa => (s0.recall c pa).stashFill b (64 * g + sva % 4096 / 64) pa e.bits
    | none, .dev pa => (s0.recall c pa).holdLine c t (s0.lineTag c asid e t (canon57 sva))
    | _, _ => s0.moveLine c t (s0.lineTag c asid e t (canon57 sva))
  let via := if own.isSome then .poc else if e.c then via else if via == .poc then .poc else .merge
  let fetch (s : State) : Reach := .remote s
    { t, va := canon57 sva, l1 := if via == .l1 then some sec else none, ro := if via == .ro then some sec else none,
      llc := s0.lineTag c asid e t (canon57 sva), own := false }
  let held (s : State) (k : Core) : Bool := !(k.dirtyOf sec).isEmpty && (k.badL1 sec || s.badAt t)
  match via with
  | .l1 =>
    let k := s.core c
    if keys.all (fun q => (aget? q k.l1).isSome) then
      .bytes s0 (keys.map (fun q => (aval (0, false) q k.l1).1)) (k.badL1 sec || held s k)
    else match s.sectorAt t none with
      | some (b, p) =>
        let k1 := k.fillL1 sec b p false
        .bytes (s.modCore c (fun _ => k1)) (keys.map (fun q => (aval (0, false) q k1.l1).1)) (k1.badL1 sec || held s k1)
      | none => match s.sectorAt t landed with
        | none => fetch s
        | some (b, p) => .bytes s (keys.map (fun q => (aval (b.getD (q % 64) 0, false) q k.l1).1)) (p || k.badL1 sec)
  | .merge =>
    match s.sectorAt t landed with
    | none => fetch s
    | some (b, p) =>
      let k := s.core c
      .bytes s (keys.map (fun q => match aget? q k.l1 with | some (x, true) => x | _ => b.getD (q % 64) 0))
        (p || held s k)
  | .poc =>
    let s1 := s.writeBackSector c sec (fun q => o ≤ q && q < o + n)
    match s1.sectorAt t landed with
    | none => fetch s1
    | some (b, p) => .bytes s1 ((b.drop o).take n) p
  | .ro =>
    let k := s.core c
    if keys.all (fun q => (aget? q k.ro).isSome) then
      .bytes s0 (keys.map (fun q => aval 0 q k.ro)) (k.roPoison.contains sec)
    else match s.sectorAt t landed with
      | none => fetch s
      | some (b, p) =>
        .bytes (if (s.sectorAt t none).isSome then s.modCore c (fun k => k.fillRo sec b p) else s) ((b.drop o).take n) p
/-- A store of bytes at offset o of a sector (R140, R141, R147): into L1 as dirty bytes, and written back at once where
`through` says so; a byte that a stash serves goes to the point of coherence. -/
def State.storeL1 (s0 : State) (c asid : Nat) (e : PermEntry) (t : Target) (sva o : Nat) (b : List Byte) (poison through : Bool) :
    State :=
  let s := s0.fillPerm c e
  let sec := lkey asid sva / 64
  match s.stashServes c asid sva t, t with
  | some (n, q), .dev pa =>
    (s.stashFill n (64 * q + sva % 4096 / 64) pa e.bits).storeSector c asid e t (canon57 sva)
      ((List.range b.length).map (fun k => (o + k, b.getD k 0))) poison
  | _, _ =>
    let s1 := (s.modCore c (fun k =>
      { k with l1 := (List.range b.length).foldl (fun m j => aput (sec * 64 + o + j) (b.getD j 0, true) m) k.l1,
               l1Own := poisonAfter k.l1Own [sec] poison (fun _ => o == 0 && b.length == 64),
               l1Poison := if !poison && o == 0 && b.length == 64 then setDel sec k.l1Poison else k.l1Poison })).trimL1 c [sec]
    if through || !e.c then s1.writeBackSector c sec (fun q => o ≤ q && q < o + b.length) else s1

/-! ## Releases and acquires -/

/-- Scopes of R158 by SC. -/
def scDev (sc : Nat) : Bool := 2 ≤ sc
/-- Whether posted writes of the context that the core issued await acknowledgement, or host lines that its stores went to are not yet the
device's own (R160 step 3, R183, R186). -/
def State.postedOut (s : State) (c : Nat) (ctxid : BitVec 16) : Bool :=
  s.requests.any (fun e => (e.2.kind == .posted || e.2.kind == .own) && e.2.core == c && e.2.ctxid == ctxid)
/-- Whether the last-level cache has not yet accepted what a core has published (R160 step 2): a coherent host line becomes its own first
(R183). -/
def State.ownsOut (s : State) (c : Nat) : Bool := s.requests.any (fun e => e.2.kind == .own && e.2.core == c)
/-- Whether REDs of the core still wait for a sector to come (R160 step 1, R173). -/
def State.redsOut (s : State) (c : Nat) : Bool := s.requests.any (fun e => e.2.core == c && !e.2.acts.isEmpty)
/-- Whether a RED of the core that has not been performed addresses the sector: the core's later accesses of it wait (R84, R172). -/
def State.redOn (s : State) (c sec : Nat) : Bool :=
  s.requests.any (fun e => e.2.core == c && e.2.acts.any (fun a => lkey a.asid a.sva / 64 == sec))
/-- The DEFERRED trap (R186, R295). -/
def deferredTrap (n : Nat) (addr : DWord) (kind : Nat) (cur : Mask) : Trap :=
  trap64 13 (BitVec.ofNat 32 (kind + 256 * min n (2 ^ 24 - 1))) addr cur
/-- Step 1 of a release, and of a FENCE that acquires (R160, R161): the accesses earlier in group order are performed, of which only REDs
that wait for their sector can be left. -/
def State.performed (s : State) (c : Nat) : Res Unit := if s.redsOut c then .error (.wait s .settle) else .ok ()
/-- Steps 1 and 2 of a release of device or system scope (R160): a publish, which ends when the last-level cache has accepted its bytes. -/
def State.publishAll (s : State) (c : Nat) : Res State := do
  s.performed c
  let s1 := s.publish c
  if s1.ownsOut c then .error (.wait s1 .settle) else pure s1
/-- A release's steps before its own access (R160): the earlier accesses; at device or system scope a publish; at system scope the
acknowledgements, and the DEFERRED trap for failures recorded, which clears them. -/
def State.release (s : State) (g : Group) (ctxid : BitVec 16) (sc : Nat) (cur : Mask) : Res State := do
  s.performed g.core
  if sc < 2 then .ok s
  else do
    let s1 ← s.publishAll g.core
    if sc < 3 then .ok s1
    else if s1.postedOut g.core ctxid then .error (.wait s1 (.posted ctxid.toNat))
    else match aget? ctxid.toNat (s1.core g.core).deferred with
      | some d =>
        .error (.part (s1.modCore g.core (fun x => { x with deferred := adel ctxid.toNat x.deferred })) (deferredTrap d.count d.addr d.kind cur))
      | none => .ok s1
/-- An acquire's steps after its own access (R161 step 2). -/
def State.acquire (s : State) (c sc : Nat) : State := if sc < 2 then s else s.refresh c

end Sys2Proof.Machine
end

