-- ==== Sys2Proof/Machine/Remote.lean ====
section
/-! DEFINITION. The checks of an access lane by lane (R145, R360, R361) and the accesses that wait for a link (R146, R173,
R334). -/
namespace Sys2Proof.Machine

/-! ## Link requests of a word -/

/-- The number under which a slot of a group waits for link responses. -/
def slotKey (key : Nat) (slot1 : Bool) : Nat := 2 * key + (if slot1 then 1 else 0)
/-- The accesses a slot awaits. -/
def Group.pendOf (g : Group) (slot1 : Bool) : Option Pend := if slot1 then g.pend1 else g.pend0
/-- The accesses a slot awaits become p. -/
def Group.setPend (g : Group) (slot1 : Bool) (p : Option Pend) : Group :=
  if slot1 then { g with pend1 := p } else { g with pend0 := p }
/-- The lanes left to the slot's word become m. -/
def Group.setRedo (g : Group) (slot1 : Bool) (m : Mask) : Group :=
  g.setRetry slot1 { g.retry slot1 with redo := some m }
/-- No part of an access is outstanding. -/
def Pend.empty : Pend := { waiting := [], sent := [], landed := [], fails := [] }
/-- W0 of a REMOTE trap (R295, R334): a host access names the chip 0x3FFF. -/
def remoteW0 (reason kind : Nat) (indet : Bool) (chip : Option Nat) : Nat :=
  reason + 16 * kind + (if indet then 256 else 0) + 4096 * chip.getD 0x3FFF
/-- What a request to a peer is known by when its word runs again: the slot, the part, the chip and the address. -/
def tagKey (sk k chip : Nat) (rva : DWord) : Nat := ((sk * 2 ^ 64 + k) * 2 ^ 16 + chip) * 2 ^ 64 + rva.toNat
/-- Whether a slot's word runs again for its unfinished lanes. -/
def State.inRedo (s : State) (sk : Nat) : Bool := ((s.group? (sk / 2)).bind (fun g => g.redo (sk % 2 == 1))).isSome
/-- A request to a peer leaves: the replay of one that no response answered keeps its tag (R173, R334, R379). -/
def State.replayRequest (s : State) (k sk : Nat) (r : Request) : State × Nat :=
  match (if s.inRedo sk then aget? k s.tagUses else none) with
  | some tag => (({ s with requests := aput tag r s.requests, tagUses := adel k s.tagUses } : State).copySent r.chip tag, tag)
  | none => { s with tagUses := adel k s.tagUses }.newRequest r
/-- The part k of an access is sent to the target of its request (R146); on a link that is down it fails at once (R334). A part that
is already outstanding or answered by that target is not sent again; one that another target answered is (R337, R338), and a host line that a snoop has taken back since (R169, R183). -/
def State.requestPart (q : State × Pend) (rq : Request) (k : Nat) (msg : Nat → Option (Nat × Nat) → DWord → Msg) : State × Pend :=
  let (s, p0) := q
  if aget? k p0.sent = some rq.target && (p0.waiting.any (fun e => e.2 == k) || (!rq.own && (aget? k p0.landed).isSome) || (aget? k p0.fails).isSome) then q
  else
    let p : Pend := { waiting := p0.waiting.filter (fun e => e.2 != k), sent := aput k rq.target p0.sent, landed := adel k p0.landed,
                      fails := adel k p0.fails }
    match rq.target with
    | .dev _ => q
    | .host pa _ =>
      if s.hostUp then
        let r := s.newRequest rq
        (r.1.send (msg r.2 none (hostPa pa)), { p with waiting := p.waiting ++ [(r.2, k)] })
      else (s, { p with fails := aput k (remoteW0 3 0 false none) p.fails })
    | .peer chip x rva =>
      let part := s.linkPart rq.core rq.ctxid
      if chip = s.chip then
        let k1 := s.ownKind x rva (rq.kind != .load)
        (s.inboundFault x k1 rva, { p with fails := aput k (remoteW0 1 k1 false (some chip)) p.fails })
      else if s.chipUp part chip then
        let r := s.replayRequest (tagKey rq.key k chip rva) rq.key { rq with port := s.portTo part chip rva }
        (r.1.send (msg r.2 (some (chip, x.toNat)) rva), { p with waiting := p.waiting ++ [(r.2, k)] })
      else (s, { p with fails := aput k (remoteW0 3 0 false (some chip)) p.fails })
/-- The request of a sector that a link must bring, for a slot or an operation. -/
def Fetch.request (f : Fetch) (w : Who) (kind : ReqKind) (key : Nat) (op : Option (Nat × Nat)) (now : DWord) : Request :=
  { blankRequest kind w.core w.ctxid f.t f.va now with key, op, l1 := f.l1, ro := f.ro, llc := f.llc, own := f.own }
/-- The message of such a request (R146, R169): a read of the sector, or one that makes the host line the device's own. -/
def Fetch.msg (f : Fetch) (tag : Nat) (dst : Option (Nat × Nat)) (a : DWord) : Msg := if f.own then .own tag a else .read tag dst a 64
/-- The sectors that a word or an operation must read over a link are requested. -/
def State.requestSectors (s : State) (sk : Nat) (w : Who) (op : Option (Nat × Nat)) (p : Pend) (needs : List Fetch) : State × Pend :=
  needs.foldl (fun q f => State.requestPart q (f.request w .load sk op s.tick) f.key f.msg) (s, p)
/-- The bytes that have come for a sector of a word's access at a target. -/
def Pend.sector (p : Pend) (sva : Nat) (t : Target) : Option (List Byte × Bool) := p.got (sva / 64) t

/-! ## Checks -/

/-- The ALIGN trap of the lanes whose address is no multiple of n (R145, R295); `sz` is SZ. -/
def alignCheck (m : Mask) (addr : Nat → Int) (n sz : Nat) : Res Unit :=
  let al := maskOf (fun l => m.getLsbD l && addr l % n != 0)
  if al = 0 then .ok ()
  else .error (.trap (trap64 6 (BitVec.ofNat 32 (16 * lowLane al + 4096 * sz)) (BitVec.ofInt 64 (addr (lowLane al))) al))
/-- The lowest armed comparator of a core that matches an access of n bytes (R361). -/
def State.watchHit (s : State) (c asid lane : Nat) (va : DWord) (n : Nat) (rd wr : Bool) : Option Nat :=
  ((s.core c).comps.find? (fun q =>
    let x := q.2
    x.asid.toNat == asid && x.lanes.getLsbD lane && ((rd && x.ctl.getLsbD 4) || (wr && x.ctl.getLsbD 5)) &&
      (List.range n).any (fun k => (va + BitVec.ofNat 64 k - x.start).toNat < x.len))).map Prod.fst
/-- The MEMORY trap (R145, R295). -/
def memoryTrap (kind lane : Nat) (wr atomic : Bool) (addr : DWord) (lanes unfin : Mask) : Trap :=
  { trap64 5 (BitVec.ofNat 32 (kind + 16 * lane + (if wr then 512 else 0) + (if atomic then 1024 else 0))) addr lanes with unfin }
/-- The WATCH trap (R145, R295). -/
def watchTrap (comp lane : Nat) (wr : Bool) (addr : DWord) (lanes unfin : Mask) : Trap :=
  { trap64 7 (BitVec.ofNat 32 (comp + 16 * lane + (if wr then 512 else 0))) addr lanes with unfin }
/-- The REMOTE trap of lanes that a link failed (R146, R173, R334). -/
def remoteTrap (w0 : Nat) (addr : DWord) (lanes : Mask) : Trap := trap64 12 (BitVec.ofNat 32 w0) addr lanes
/-- The order of R145 after ALIGN: F and WT decide which lanes are performed and which trap follows. `fault` and `watch` give
the kind and the comparator of a lane. -/
def splitLanes (m : Mask) (exempt wr atomic : Bool) (addr : Nat → DWord) (fault watch : Nat → Option Nat) : Mask × Option Trap :=
  let f := maskOf (fun l => m.getLsbD l && (fault l).isSome)
  let wt := if exempt then 0 else maskOf (fun l => m.getLsbD l && (fault l).isNone && (watch l).isSome)
  if f ≠ 0 then
    let l := lowLane f
    (m &&& ~~~f &&& ~~~wt, some (memoryTrap ((fault l).getD 0) l wr atomic (addr l) f (f ||| wt)))
  else if wt ≠ 0 then
    let l := lowLane wt
    (0, some (watchTrap ((watch l).getD 0) l wr (addr l) wt m))
  else (m, none)

/-- A lane of a generic access that passes its checks. -/
structure GenLane where
  lane : Nat
  va : DWord
  e : PermEntry
  t : Target
deriving DecidableEq, Repr
/-- What a generic access does: the state after the permission cache was used, the lanes to perform, the trap that follows. -/
structure GenPlan where
  s : State
  good : List GenLane
  stop : Option Trap
deriving DecidableEq, Repr
/-- The checks of R145 on a generic access of n bytes a lane (R143, R144, R409, R324). -/
def State.genPlan (s : State) (w : Who) (g : Group) (slot1 : Bool) (m : Mask) (addr : Nat → DWord) (n : Nat) (acc : Access)
    (rd wr atomic atomOk : Bool) : GenPlan :=
  let res := (Mask.toLanes m).map (fun l => (l, s.checkByte w acc (addr l) atomOk))
  let s1 := res.foldl (fun s q => match q.2 with
    | .ok x => s.fillPerm w.core x.1
    | .error k => s.dropPerm w (addr q.1) k) s
  let fault (l : Nat) : Option Nat := match s.checkByte w acc (addr l) atomOk with
    | .ok _ => none
    | .error k => some k
  let (good, stop) := splitLanes m (g.skipWatch slot1) wr atomic addr fault (fun l => s.watchHit w.core w.asid l (addr l) n rd wr)
  { s := s1, stop,
    good := res.filterMap (fun q => match q.2 with
      | .ok x => if good.getLsbD q.1 then some { lane := q.1, va := addr q.1, e := x.1, t := x.2 } else none
      | .error _ => none) }
/-- The mask of lanes. -/
def genMask (l : List GenLane) : Mask := maskOf (fun k => l.any (fun q => q.lane == k))

/-! ## Scratchpad -/

/-- Where a run of scratchpad bytes stands: the local area, or a stash sector's memory with the sector's number. -/
inductive ScrPlace where
  | loc (off : Nat)
  | stash (sec pa : Nat) (fill : Option PermEntry)
deriving DecidableEq, Repr
/-- The checks of R409 on a scratchpad access of n bytes at offset o. -/
def State.scrCheck (s : State) (w : Who) (b : Option Block) (wr : Bool) (o : Int) (n : Nat) : Except Nat ScrPlace :=
  let localSize := (b.map Block.localSize).getD 0
  let size := localSize + (b.map Block.stashSize).getD 0
  if o < 0 || (size : Int) < o + n then .error kSCRBOUND
  else if o < localSize then .ok (.loc o.toNat)
  else
    let q := o.toNat - localSize
    match b.bind (fun k => aget? (q / 4096) k.stash) with
    | none => .error kSTASHUNMAP
    | some g =>
      if wr && !g.w then .error kSTASHRO
      else match b.bind (fun k => aget? (q / 64) k.stashFilled) with
        | some x => .ok (.stash (q / 64) (x.1 + q % 64) none)
        | none => do
          let va := canon57 (g.page + q % 4096)
          let e ← s.permLookup w va
          permCheck w (if wr then .write else .read) e
          if e.stripe.isSome || hbmEnd ≤ e.pa then .error kSTASHTARGET
          else .ok (.stash (q / 64) (e.pa + va57 va % 2 ^ e.bits) (some e))
/-- The generic address of a stash byte, for watchpoints (R145). -/
def stashVa (b : Option Block) (o : Int) : Option DWord :=
  b.bind (fun k => if o < k.localSize then none
    else (aget? ((o.toNat - k.localSize) / 4096) k.stash).map (fun g => canon57 (g.page + o.toNat % 4096)))
/-- A lane of a scratchpad access that passes its checks. -/
structure ScrLane where
  lane : Nat
  off : Int
  place : ScrPlace
deriving DecidableEq, Repr
/-- What a scratchpad access does. -/
structure ScrPlan where
  s : State
  good : List ScrLane
  stop : Option Trap
deriving DecidableEq, Repr
/-- First touches are recorded: the permission cache and the stash sector (R139). -/
def State.touchStash (s : State) (c : Nat) (b : Option Nat) (p : ScrPlace) : State :=
  match p, b with
  | .stash sec pa (some e), some n => ((s.fillPerm c e).recall c (pa / 64 * 64)).stashFill n sec (pa / 64 * 64) e.bits
  | _, _ => s
/-- The address that a trap of a scratchpad access names: the generic one for a fault on the page that a first touch checks, which the
firmware serves by it (R139, R339), and else the scratchpad offset, also in the stash area (DESIGN CHOICE, log 61). -/
def scrFaultVa (b : Option Block) (o : Int) (kind : Option Nat) : DWord :=
  match kind with
  | some k =>
    if [kSCRBOUND, kSTASHUNMAP, kSTASHRO, kSTASHTARGET].contains k then BitVec.ofInt 64 o else (stashVa b o).getD (BitVec.ofInt 64 o)
  | none => BitVec.ofInt 64 o
/-- The checks of R145 on a scratchpad access of n bytes a lane. -/
def State.scrPlan (s : State) (w : Who) (g : Group) (slot1 : Bool) (m : Mask) (addr : Nat → Int) (n : Nat)
    (rd wr atomic : Bool) : ScrPlan :=
  let b := s.blockOf g
  let res := (Mask.toLanes m).map (fun l => (l, s.scrCheck w b wr (addr l) n))
  let fault (l : Nat) : Option Nat := match s.scrCheck w b wr (addr l) n with
    | .ok _ => none
    | .error k => some k
  let watch (l : Nat) : Option Nat := (stashVa b (addr l)).bind (fun va => s.watchHit w.core w.asid l va n rd wr)
  let (good, stop) := splitLanes m (g.skipWatch slot1) wr atomic (fun l => scrFaultVa b (addr l) (fault l)) fault watch
  let lanes := res.filterMap (fun q => match q.2 with
    | .ok x => if good.getLsbD q.1 then some { lane := q.1, off := addr q.1, place := x : ScrLane } else none
    | .error _ => none)
  let s1 := res.foldl (fun s q => match q.2, stashVa b (addr q.1) with
    | .error k, some va => s.dropPerm w va k
    | _, _ => s) s
  { s := lanes.foldl (fun s q => s.touchStash w.core g.blk q.place) s1, good := lanes, stop }
/-- n bytes of a place of a block's scratchpad, with their poison (R137, R139, R147). -/
def State.scrRead (s : State) (b : Option Nat) (p : ScrPlace) (n : Nat) : List Byte × Bool :=
  match p with
  | .loc o =>
    let k := b.bind (fun x => aget? x s.blocks)
    ((List.range n).map (fun j => aval 0 (o + j) ((k.map Block.loc).getD [])),
      (sectorsOf o n).any (fun q => ((k.map Block.locPoison).getD []).contains q))
  | .stash _ pa _ => (s.readPhysN pa n, s.physPoison pa n)
/-- Bytes written to a place of a block's scratchpad. -/
def State.scrWrite (s : State) (b : Option Nat) (p : ScrPlace) (bytes : List Byte) (poison : Bool) : State :=
  match p, b with
  | .loc o, some x => s.modBlock x (fun k =>
      { k with loc := (List.range bytes.length).foldl (fun m j => aset 0 (o + j) (bytes.getD j 0) m) k.loc,
               locPoison := poisonAfter k.locPoison (sectorsOf o bytes.length) poison
                 (fun q => o ≤ 64 * q && 64 * q + 64 ≤ o + bytes.length) })
  | .loc _, none => s
  | .stash _ pa _, _ => s.writePhysN pa bytes poison

end Sys2Proof.Machine
end

