-- ==== Sys2Proof/Machine/Memory.lean ====
section
/-! DEFINITION. Loads, stores, fragments, prefetch, cache control, probes, fences and stash windows (R135 to R155, R168). -/
namespace Sys2Proof.Machine

/-! ## Addresses and rows -/

/-- The generic address of lane l (R41, R135). -/
def genAddr (g : Group) (r : MWord) (l : Nat) : DWord := g.src64 r.a.toNat r.au l + r.off.signExtend 64
/-- The scratchpad address of lane l, exact (R135). -/
def scrAddr (g : Group) (r : MWord) (l : Nat) : Int := ((g.src r.a.toNat r.au l).toNat : Int) + r.off.toInt
/-- The bytes of an access: 2^SZ. -/
def accSize (r : MWord) : Nat := 2 ^ r.sz.toNat
/-- SX of the load mode (R148). -/
def loadSx (r : MWord) : Bool := r.b.getLsbD 0
/-- A lane's destination run takes loaded bytes (R149). -/
def Group.landRow (g : Group) (d l : Nat) (sx : Bool) (bytes : List Byte) (poison : Bool) : Group :=
  let n := bytes.length
  let bit : Mask := 1#32 <<< l
  let p : Mask := if poison then bit else 0
  if n < 4 then
    let x := leNat bytes
    let v : Word := if sx then (if n = 1 then (BitVec.ofNat 8 x).signExtend 32 else (BitVec.ofNat 16 x).signExtend 32) else BitVec.ofNat 32 x
    (g.setV d l v).setPoisonV d bit p
  else
    (List.range (n / 4)).foldl (fun g k =>
      (g.setV (d + k) l (BitVec.ofNat 32 (leNat ((bytes.drop (4 * k)).take 4)))).setPoisonV (d + k) bit p) g
/-- The n bytes that a lane stores: its run from B, truncated (R149), with whether a register of it is poisoned. -/
def Group.rowOf (g : Group) (b l n : Nat) : List Byte × Bool :=
  let k := max 1 (n / 4)
  ((List.range k).flatMap (fun j => leBytes (g.getV (b + j) l).toNat (min n 4)),
    (List.range k).any (fun j => (g.poisonV (b + j)).getLsbD l))

/-! ## Generic loads -/

/-- The clean copies of n bytes at a sector's offset leave L1 (R166 rule 4). -/
def State.dropClean (s : State) (c asid sva o n : Nat) : State :=
  let base := lkey asid sva / 64 * 64 + o
  s.discard c (fun k dirty => !dirty && base ≤ k && k < base + n)
/-- What the lanes of a load read: the state, the rows by lane, and the sectors that a link must bring. -/
structure LoadRun where
  s : State
  rows : List (Nat × (List Byte × Bool))
  needs : List Fetch
  failed : List (Nat × Nat)
deriving DecidableEq, Repr
/-- What a slot of a group awaits in a state. -/
def State.pendNow (s : State) (key : Nat) (slot1 : Bool) : Pend := ((s.group? key).bind (fun g => g.pendOf slot1)).getD Pend.empty
/-- One lane of a generic load in a state. -/
def State.loadLane (s : State) (w : Who) (n : Nat) (via : Via) (p : Pend) (x : GenLane) : Reach :=
  let o := va57 x.va % 64
  let sva := va57 x.va - o
  s.loadSector w.core w.asid x.e (x.t.back o) sva o n via (p.sector sva (x.t.back o))
/-- The lanes of a generic load (R149): a sector that a link failed gives its lane to REMOTE with W0. The sectors are brought first and read
once all stand, so that lanes that read the same byte receive the same value (R142). -/
def loadLanes (w : Who) (n : Nat) (via : Via) (key : Nat) (slot1 : Bool) (s : State) (lanes : List GenLane) : LoadRun :=
  let q := lanes.foldl (fun (q : LoadRun) (x : GenLane) =>
    let o := va57 x.va % 64
    let sva := va57 x.va - o
    let p := q.s.pendNow key slot1
    match aget? (sva / 64) p.fails with
    | some f => { q with failed := q.failed ++ [(x.lane, f)] }
    | none =>
      match q.s.loadLane w n via p x with
      | .bytes s b poison =>
        let s1 := if via == .merge || !x.e.c then s.dropClean w.core w.asid sva o n else s
        { q with s := s1, rows := q.rows ++ [(x.lane, (b, poison))] }
      | .remote s f => { q with s, needs := q.needs ++ [f] })
    { s, rows := [], needs := [], failed := [] }
  let last (r : Nat × (List Byte × Bool)) : Nat × (List Byte × Bool) :=
    match lanes.find? (fun x => x.lane == r.1) with
    | some x => match q.s.loadLane w n via (q.s.pendNow key slot1) x with
      | .bytes _ b poison => (r.1, (b, poison))
      | .remote _ _ => r
    | none => r
  { q with s := q.s.trimCaches w.core (lanes.map (fun x => lkey w.asid (va57 x.va) / 64)), rows := q.rows.map last }
/-- The lanes that a link failed trap REMOTE (R146, R173): the lanes of `done` are finished and are not performed again. -/
def remoteFail (s : State) (key : Nat) (slot1 : Bool) (m done : Mask) (failed : List (Nat × Nat)) (addr : Nat → DWord) : Res State :=
  let lanes := maskOf (fun l => (aget? l failed).isSome)
  let l := lowLane lanes
  .error (.part (s.modGroup key (fun g => g.setRedo slot1 (m &&& ~~~done))) (remoteTrap (aval 0 l failed) (addr l) lanes))
/-- After the performed lanes: the trap that R145 leaves, or the end of the word. -/
def afterLanes (s : State) (stop : Option Trap) : Res State :=
  match stop with
  | some t => .error (.part s t)
  | none => .ok s.advance
/-- Whether a lane's access meets a sector on which a RED of the core waits (R84, R172, R173). -/
def State.redMeets (s : State) (w : Who) (m : Mask) (addr : Nat → DWord) : Bool :=
  (Mask.toLanes m).any (fun l => s.redOn w.core (lkey w.asid (va57 (addr l)) / 64))
/-- A generic load (R145, R146, R149, R161): `via` is its path, `sc` the scope of its acquire steps. -/
def genLoad (s : State) (g : Group) (r : MWord) (m : Mask) (sx : Bool) (via : Via) (sc : Nat) : Res State := do
  g.consume 4 m [(r.a.toNat, 2, r.au)]
  let n := accSize r
  alignCheck m (fun l => ((genAddr g r l).toNat : Int)) n r.sz.toNat
  let w := s.whoGroup g
  let key := s.cur.key
  let slot1 := s.cur.slot1
  let p := (g.pendOf slot1).getD Pend.empty
  if s.redMeets w m (genAddr g r) then .error (.wait s .settle)
  let early := (Mask.toLanes m).filterMap (fun l => (aget? (va57 (genAddr g r l) / 64) p.fails).map (fun f => (l, f)))
  let pl := s.genPlan w g slot1 (m &&& ~~~maskOf (fun l => (aget? l early).isSome)) (genAddr g r) n .read true false false true
  let q0 := loadLanes w n via key slot1 pl.s pl.good
  let q := { q0 with failed := early ++ q0.failed }
  if q.needs.isEmpty then
    let s1 := (q.s.modGroup key (fun g => q.rows.foldl (fun g x => g.landRow r.d.toNat x.1 sx x.2.1 x.2.2) g)).acquire w.core sc
    if q.failed.isEmpty then afterLanes s1 pl.stop
    else remoteFail s1 key slot1 m (maskOf (fun l => (aget? l q.rows).isSome)) q.failed (genAddr g r)
  else
    let (s1, p1) := q.s.requestSectors (slotKey key slot1) w none (q.s.pendNow key slot1) q.needs
    .error (.wait (s1.modGroup key (fun g => g.setPend slot1 (some p1))) .none)
/-- The path of LD (R141, R161): an acquire of device or system scope reads at the point of coherence. -/
def ldVia (r : MWord) : Via :=
  if r.ord = 1 ∧ scDev r.sc.toNat then .poc else if r.cp = 3 then .merge else .l1
/-- LD (R149). -/
def execLd (r : MWord) (s : State) : Out State :=
  issue (.ld r) s (fun g m =>
    if m = 0 then .ok s.advance
    else genLoad s g r m (loadSx r) (ldVia r) (if r.ord = 1 then r.sc.toNat else 0))
/-- LDRO (R150). -/
def execLdro (r : MWord) (s : State) : Out State :=
  issue (.ldro r) s (fun g m => if m = 0 then .ok s.advance else genLoad s g r m (loadSx r) .ro 0)
/-- The core's read-only path cache is discarded; what links are bringing for it does not enter it (R150). -/
def State.dropRo (s : State) (c : Nat) : State :=
  let s1 := s.modCore c (fun k => { k with ro := [], roPoison := [] })
  { s1 with requests := s1.requests.map (fun (e : Nat × Request) => if e.2.core == c then (e.1, { e.2 with ro := none }) else e) }
/-- ROINV (R150). -/
def execRoinv (r : RWord) (s : State) : Out State :=
  stateWord (.roinv r) s (fun g _ => .ok (s.dropRo g.core))

/-! ## Generic stores -/

/-- The lanes of a generic store in ascending order (R142, R149). -/
def storeLanes (g : Group) (w : Who) (b n : Nat) (through : Bool) (s : State) (lanes : List GenLane) : State :=
  lanes.foldl (fun s x =>
    let o := va57 x.va % 64
    let row := g.rowOf b x.lane n
    s.storeL1 w.core w.asid x.e (x.t.back o) (va57 x.va - o) o row.1 row.2 through) s
/-- ST (R149, R160). -/
def execSt (r : MWord) (s : State) : Out State :=
  issue (.st r) s (fun g m =>
    if m = 0 then .ok s.advance
    else do
      g.consume 4 m [(r.a.toNat, 2, r.au)]
      let n := accSize r
      alignCheck m (fun l => ((genAddr g r l).toNat : Int)) n r.sz.toNat
      let w := s.whoGroup g
      if s.redMeets w m (genAddr g r) then .error (.wait s .settle)
      let pl := s.genPlan w g s.cur.slot1 m (genAddr g r) n .write false true false true
      let rel := r.ord = 2
      let s1 ← if rel && !pl.good.isEmpty then pl.s.release g w.ctxid r.sc.toNat (g.mask s.cur.slot1) else pure pl.s
      afterLanes (storeLanes g w r.b.toNat n (r.cp == 3 || (rel && scDev r.sc.toNat)) s1 pl.good) pl.stop)

/-! ## Scratchpad loads and stores -/

/-- LDS (R149). -/
def execLds (r : MWord) (s : State) : Out State :=
  issue (.lds r) s (fun g m =>
    if m = 0 then .ok s.advance
    else do
      g.consume 4 m [(r.a.toNat, 1, r.au)]
      let n := accSize r
      alignCheck m (scrAddr g r) n r.sz.toNat
      let pl := s.scrPlan (s.whoGroup g) g s.cur.slot1 m (scrAddr g r) n true false false
      let g1 := pl.good.foldl (fun h x =>
        let row := pl.s.scrRead g.blk x.place n
        h.landRow r.d.toNat x.lane (loadSx r) row.1 row.2) g
      afterLanes (pl.s.setGroup s.cur.key g1) pl.stop)
/-- STS (R149). -/
def execSts (r : MWord) (s : State) : Out State :=
  issue (.sts r) s (fun g m =>
    if m = 0 then .ok s.advance
    else do
      g.consume 4 m [(r.a.toNat, 1, r.au)]
      let n := accSize r
      alignCheck m (scrAddr g r) n r.sz.toNat
      let pl := s.scrPlan (s.whoGroup g) g s.cur.slot1 m (scrAddr g r) n false true false
      afterLanes (pl.good.foldl (fun s x =>
        let row := g.rowOf r.b.toNat x.lane n
        s.scrWrite g.blk x.place row.1 row.2) pl.s) pl.stop)

/-! ## Fragments (R151) -/

/-- The bits of an element under EW of the fragment mode. -/
def fragBits (mode : Nat) : Nat := [8, 16, 4, 32].getD (mode % 4) 8
/-- T of the fragment mode. -/
def fragT (mode : Nat) : Bool := mode / 4 % 2 == 1
/-- Element j of e bits of a row. -/
def rowElem (e j : Nat) (row : List Byte) : Nat := leNat row / 2 ^ (e * j) % 2 ^ e
/-- The transpose that LDM reads (R151): lane l's n bytes of Q, where row i of M is `rows i`. -/
def ldmRow (e n l : Nat) (rows : Nat → List Byte) : List Byte :=
  let nel := 8 * n / e
  leBytes (((List.range nel).map (fun i => rowElem e ((l * nel + i) / 32) (rows ((l * nel + i) % 32)) * 2 ^ (e * i))).sum) n
/-- The lanes whose rows give elements to lane l. -/
def ldmFrom (e n l : Nat) : List Nat := (List.range (8 * n / e)).map (fun i => (l * (8 * n / e) + i) % 32)
/-- The row that lane l writes under STM with T = 1: M's transpose, read row by row, is Q, the lanes' runs concatenated. -/
def stmRow (e n l : Nat) (runs : Nat → List Byte) : List Byte :=
  let nel := 8 * n / e
  leBytes (((List.range nel).map (fun j => rowElem e ((j * 32 + l) % nel) (runs ((j * 32 + l) / nel)) * 2 ^ (e * j))).sum) n
/-- The registers (lane and number in the run) that give elements to the row of lane l. -/
def stmFrom (e n l : Nat) : List (Nat × Nat) :=
  let nel := 8 * n / e
  (List.range nel).map (fun j => ((j * 32 + l) / nel, (j * 32 + l) % nel * e / 32))
/-- LDM (R151). With T = 1 no lane is performed until every row can be read. -/
def execLdm (r : MWord) (s : State) : Out State :=
  issue (.ldm r) s (fun g m =>
    if m = 0 then .ok s.advance
    else do
      g.consume 4 m [(r.a.toNat, 1, r.au)]
      let n := accSize r
      let mode := r.b.toNat
      let e := fragBits mode
      alignCheck m (scrAddr g r) n r.sz.toNat
      let pl := s.scrPlan (s.whoGroup g) g s.cur.slot1 m (scrAddr g r) n true false false
      if fragT mode then
        match pl.stop with
        | some t => .error (.part pl.s { t with unfin := m })
        | none =>
          let read (l : Nat) : List Byte × Bool := match pl.good.find? (fun x => x.lane == l) with
            | some x => pl.s.scrRead g.blk x.place n
            | none => (List.replicate n 0, false)
          let g1 := pl.good.foldl (fun h x =>
            h.landRow r.d.toNat x.lane false (ldmRow e n x.lane (fun i => (read i).1))
              ((ldmFrom e n x.lane).any (fun i => (read i).2))) g
          .ok (pl.s.setGroup s.cur.key g1).advance
      else
        let g1 := pl.good.foldl (fun h x =>
          let row := pl.s.scrRead g.blk x.place n
          h.landRow r.d.toNat x.lane false row.1 row.2) g
        afterLanes (pl.s.setGroup s.cur.key g1) pl.stop)
/-- STM (R151). Under T = 1, Q takes the runs of the lanes of the current mask. -/
def execStm (r : MWord) (s : State) : Out State :=
  issue (.stm r) s (fun g m =>
    if m = 0 then .ok s.advance
    else do
      g.consume 4 m [(r.a.toNat, 1, r.au)]
      let n := accSize r
      let mode := r.d.toNat
      let e := fragBits mode
      alignCheck m (scrAddr g r) n r.sz.toNat
      let pl := s.scrPlan (s.whoGroup g) g s.cur.slot1 m (scrAddr g r) n false true false
      let cur := g.mask s.cur.slot1
      let run (l : Nat) : List Byte := if cur.getLsbD l then (g.rowOf r.b.toNat l n).1 else List.replicate n 0
      let row (l : Nat) : List Byte × Bool :=
        if fragT mode then (stmRow e n l run, (stmFrom e n l).any (fun q =>
          cur.getLsbD q.1 && (g.poisonV (r.b.toNat + q.2)).getLsbD q.1))
        else g.rowOf r.b.toNat l n
      afterLanes (pl.good.foldl (fun s x => s.scrWrite g.blk x.place (row x.lane).1 (row x.lane).2) pl.s) pl.stop)

/-! ## Prefetch, cache control, probes -/

/-- PREF of one address (R152): only a page that the permission cache holds and that may be read. A sector that only a link
can bring is requested, and no slot waits for it. -/
def State.prefetch (s : State) (w : Who) (va : DWord) (cp : Nat) : State :=
  if !canonical va then s
  else match permFind (s.core w.core).perm w.asid (va57 va) with
    | none => s
    | some e =>
      match permCheck w .read e, s.targetOf w e va false with
      | .ok (), .ok t =>
        let o := va57 va % 64
        if !e.c then s
        else match s.loadSector w.core w.asid e (t.back o) (va57 va - o) o 1 (if cp = 3 then .merge else .l1) none with
          | .bytes s1 _ _ => s1.trimCaches w.core [lkey w.asid (va57 va) / 64]
          | .remote s1 f => (State.requestPart (s1, Pend.empty) (f.request w .prefetch 0 none s.tick) f.key f.msg).1
      | _, _ => s
/-- PREF (R152): a lane whose base is poisoned does nothing. -/
def execPref (r : MWord) (s : State) : Out State :=
  stateWord (.pref r) s (fun g m =>
    let clean := m &&& ~~~(g.srcPoison r.a.toNat 2 r.au)
    .ok ((Mask.toLanes clean).foldl (fun s l => s.prefetch (s.whoGroup g) (genAddr g r l) r.cp.toNat) s))
/-- The sectors of L1 that the 256-byte line of an address holds. -/
def lineSectors (w : Who) (va : DWord) : List Nat := (List.range 4).map (fun k => lkey w.asid (va57 va / 256 * 256) / 64 + k)
/-- CCTL.WB of one line (R153). -/
def State.lineWb (s : State) (w : Who) (va : DWord) : State :=
  (lineSectors w va).foldl (fun s q => s.writeBackSector w.core q (fun _ => true)) s
/-- CCTL.INV of one line: its clean L1 bytes are discarded. -/
def State.lineInv (s : State) (w : Who) (va : DWord) : State :=
  let secs := lineSectors w va
  s.discard w.core (fun k dirty => !dirty && secs.contains (k / 64))
/-- The line of the last-level cache under the caller's ASID and the address (R140): its physical line. -/
def State.llcLine (s : State) (w : Who) (va : DWord) : Option Nat :=
  (s.llcTag.find? (fun e => e.2.asid == w.asid && e.2.va == va57 va / 256)).map Prod.fst
/-- CCTL.SYSWB of one line, after its L1 bytes: the last-level cache's bytes go to their target memory (R153). -/
def State.hostWb (s : State) (w : Who) (va : DWord) : State :=
  match s.llcLine w va with
  | some line => s.hostLineWb w.core line
  | none => s
/-- CCTL.SYSINV of one line of the last-level cache: its clean bytes are discarded. -/
def State.hostLineInv (s : State) (w : Who) (va : DWord) : State :=
  match s.llcLine w va with
  | some line =>
    let kept := s.llcHost.filter (fun e => e.2.2 || e.1 / 256 != line)
    if kept.any (fun e => e.1 / 256 == line) then
      { s with llcHost := kept,
               memPoison := s.memPoison.filter (fun q => q / 4 != line || kept.any (fun e => e.1 / 64 == q)) }
    else s.dropLines (fun l => l == line)
  | none => s
/-- CCTL (R153): the poisoned base is consumed before any line is touched. `f` acts on one line. -/
def cctl (i : Instr) (r : MWord) (f : Who → State → DWord → State) (s : State) : Out State :=
  stateWord i s (fun g m => do
    g.consume 4 m [(r.a.toNat, 2, r.au)]
    let w := s.whoGroup g
    pure ((Mask.toLanes m).foldl (fun s l => f w s (genAddr g r l)) s))
/-- CCTL.WB. -/
def execCctlWb (r : MWord) (s : State) : Out State := cctl (.cctlWb r) r (fun w s va => s.lineWb w va) s
/-- CCTL.INV. -/
def execCctlInv (r : MWord) (s : State) : Out State := cctl (.cctlInv r) r (fun w s va => s.lineInv w va) s
/-- CCTL.WBINV. -/
def execCctlWbinv (r : MWord) (s : State) : Out State := cctl (.cctlWbinv r) r (fun w s va => (s.lineWb w va).lineInv w va) s
/-- CCTL.SYSWB: the slot waits until the host has accepted the bytes (R153); the word is then idle when it runs again. -/
def execCctlSyswb (r : MWord) (s : State) : Out State :=
  issue (.cctlSyswb r) s (fun g m =>
    if m = 0 then .ok s.advance
    else do
      g.consume 4 m [(r.a.toNat, 2, r.au)]
      let w := s.whoGroup g
      let s1 := (Mask.toLanes m).foldl (fun s l =>
        let va := genAddr g r l
        (s.lineWb w va).hostWb w va) s
      if s1.postedOut w.core w.ctxid then .error (.wait s1 (.posted w.ctxid.toNat)) else .ok s1.advance)
/-- CCTL.SYSINV. -/
def execCctlSysinv (r : MWord) (s : State) : Out State :=
  cctl (.cctlSysinv r) r (fun w s va => (s.lineInv w va).hostLineInv w va) s
/-- The result of PROBE (R154) of a present page: the fault kind, the size PS of its leaf and its bits. -/
def probeBits (kind ps : Nat) (dev stripe sec h c u x w : Bool) : Nat :=
  let bit (b : Bool) (k : Nat) : Nat := if b then 2 ^ k else 0
  kind * 2 ^ 16 + bit dev 10 + ps * 256 + bit stripe 7 + bit sec 6 + bit h 5 + bit c 4 + bit u 3 + bit x 2 + bit w 1 + 1
/-- The result of PROBE (R154): every field is 0 where no present page is found; the bits of a leaf that R321 refuses are its own. -/
def probeWord (s : State) (w : Who) (va : DWord) : Nat :=
  match s.permLookup w va with
  | .error k =>
    if k = kBADPTE ∨ k = kWORLD then match s.rawLeaf w.part (va57 va) 4 w.root with
      | some e =>
        let b (i : Nat) : Bool := pte e i 1 == 1
        probeBits k (pte e 10 2) (!b 9 && pte e 12 40 * 4096 < hbmEnd) (b 9) (b 6) (b 8) (b 7) (b 4) (b 3) (b 2)
      | none => 0
    else 0
  | .ok e =>
    let kind := match s.checkByte w .read va true with
      | .ok _ => 0
      | .error k => k
    probeBits kind (if e.bits = 16 then 1 else if e.bits = 21 then 2 else if e.bits = 30 then 3 else 0)
      (e.stripe.isNone && e.pa < hbmEnd) e.stripe.isSome e.sec e.h e.c e.u e.x e.w
/-- PROBE (R154). -/
def execProbe (r : MWord) (s : State) : Out State :=
  stateWord (.probe r) s (fun g m => do
    g.consume 4 m [(r.a.toNat, 2, r.au)]
    let w := s.whoGroup g
    let s1 := (Mask.toLanes m).foldl (fun s l => match s.permLookup w (genAddr g r l) with
      | .ok e => s.fillPerm w.core e
      | .error _ => s) s
    pure (s1.modGroup s.cur.key (fun h => h.writeV r.d.toNat m 0 (fun l => BitVec.ofNat 32 (probeWord s w (genAddr g r l))))))

/-! ## Fences and stash windows. A status formed from a poisoned operand is poisoned (DEDUCED, log 22). -/

/-- FENCE (R168): the release steps, then the acquire steps, of which the first awaits every earlier load and atomic (R161). -/
def execFence (r : RWord) (s : State) : Out State :=
  stateWord (.fence r) s (fun g _ => do
    let sc := xf r 0 2
    let s1 ← if xbit r 3 then s.release g (s.whoGroup g).ctxid sc (g.mask s.cur.slot1) else pure s
    if xbit r 2 then s1.performed g.core
    pure (if xbit r 2 then s1.acquire g.core sc else s1))

/-- The status of STMAP and STUNMAP before their effect (R138). -/
def stashStatus (b : Option Block) (off len : Nat) (map : Option DWord) : Nat :=
  let localSize := (b.map Block.localSize).getD 0
  let stashSize := (b.map Block.stashSize).getD 0
  if off % 4096 != 0 || len % 4096 != 0 || len == 0 || (map.any (fun va => va.toNat % 4096 != 0)) then 1
  else if off < localSize || localSize + stashSize < off + len then 2
  else match map with
    | none => 0
    | some va =>
      if !canonical va || !canonical (va + BitVec.ofNat 64 (len - 1)) then 3
      else if b.any (fun k => k.stash.any (fun q => (off - localSize) / 4096 ≤ q.1 && q.1 < (off - localSize + len) / 4096)) then 4
      else 0
/-- STMAP (R138). -/
def execStmap (r : RWord) (s : State) : Out State :=
  stateWord (.stmap r) s (fun g _ => do
    let off := (g.getS r.a.toNat).toNat
    let len := (g.getS r.c.toNat).toNat
    let va := g.getS64 r.b.toNat
    let b := s.blockOf g
    let st := stashStatus b off len (some va)
    let first := (off - (b.map Block.localSize).getD 0) / 4096
    let s1 := if st = 0 then s.modBlock (g.blk.getD 0) (fun k =>
        { k with stash := (List.range (len / 4096)).foldl (fun m i =>
            aput (first + i) { page := (va57 va + 4096 * i) % 2 ^ 57, w := xbit r 1 } m) k.stash }) else s
    let poison := g.poisonS r.a.toNat || g.poisonSRun r.b.toNat 2 || g.poisonS r.c.toNat
    pure (s1.modGroup s.cur.key (fun h => h.setS r.d.toNat (BitVec.ofNat 32 st) poison)))
/-- STUNMAP (R138): the sectors are dropped and the granules unmapped. -/
def execStunmap (r : RWord) (s : State) : Out State :=
  stateWord (.stunmap r) s (fun g _ => do
    let off := (g.getS r.a.toNat).toNat
    let len := (g.getS r.c.toNat).toNat
    let b := s.blockOf g
    let st := stashStatus b off len none
    let first := (off - (b.map Block.localSize).getD 0) / 4096
    let inR (q : Nat) : Bool := first ≤ q && q < first + len / 4096
    let s1 := if st = 0 then s.modBlock (g.blk.getD 0) (fun k =>
        { k with stash := k.stash.filter (fun e => !inR e.1), stashFilled := k.stashFilled.filter (fun e => !inR (e.1 / 64)) }) else s
    let poison := g.poisonS r.a.toNat || g.poisonS r.c.toNat
    pure (s1.modGroup s.cur.key (fun h => h.setS r.d.toNat (BitVec.ofNat 32 st) poison)))

end Sys2Proof.Machine
end

