-- ==== Sys2Proof/Machine/Atomics.lean ====
section
/-! DEFINITION. Atomics (R169 to R175). -/
namespace Sys2Proof.Machine

/-- The new value of op (R171) at w bits, of the old value and the operand. A floating atomic keeps subnormals, rounds to
nearest and sets no flag. -/
def combine (op : AtomOp) (ty : AtomTy) (w old b : Nat) : Nat :=
  let fp (f : Fmt) (x y : Nat) : Nat := match op with
    | .add => (roundTo f (exAdd 0 (f.dec x) (f.dec y)).1 0 false 0).1
    | .min => (minMax f false x y).1
    | _ => (minMax f true x y).1
  let int (signed : Bool) : Nat :=
    let z (x : Nat) : Int := if signed && 2 ^ (w - 1) ≤ x then (x : Int) - 2 ^ w else x
    match op with
    | .add => (old + b) % 2 ^ w
    | .min => if z b < z old then b else old
    | _ => if z old < z b then b else old
  match op with
  | .exch => b
  | .and => old &&& b
  | .or => old ||| b
  | .xor => old ^^^ b
  | .add | .min | .max => match ty with
    | .nat => int false
    | .sgn => int true
    | .flt => if w = 32 then fp f32 old b else fp f64 old b
    | .bf16x2 => fp bf16 (old % 65536) (b % 65536) + 65536 * fp bf16 (old / 65536) (b / 65536)

/-- What an atomic does to a location: combine, or compare and swap. -/
inductive AtomAct where
  | comb (op : AtomOp)
  | cas
deriving DecidableEq, Repr
/-- AT of the word (R41). -/
def atomTy (r : MWord) : AtomTy :=
  if r.cp = 0 then .nat else if r.cp = 1 then .sgn else if r.cp = 2 then .flt else .bf16x2
/-- The registers of a run of SZ. -/
def runLen (r : MWord) : Nat := accSize r / 4
/-- n registers of lane l from b as one value. -/
def Group.runVal (g : Group) (b n l : Nat) : Nat := leNat ((List.range n).flatMap (fun k => leBytes (g.getV (b + k) l).toNat 4))
/-- Whether one of n registers of lane l from b is poisoned. -/
def Group.runPoison (g : Group) (b n l : Nat) : Bool := (List.range n).any (fun k => (g.poisonV (b + k)).getLsbD l)
/-- The write of an atomic on old bytes with their poison (R172, R174): the new bytes with their poison, or none. -/
def atomWrite (a : AtomAct) (r : MWord) (g : Group) (l : Nat) (old : List Byte) (poison : Bool) : Option (List Byte × Bool) :=
  let n := accSize r
  let k := runLen r
  match a with
  | .comb op =>
    some (leBytes (combine op (atomTy r) (8 * n) (leNat old) (g.runVal r.b.toNat k l)) n,
      g.runPoison r.b.toNat k l || (poison && op != .exch))
  | .cas => if !poison && leNat old = g.runVal r.b.toNat k l then some (leBytes (g.runVal (r.b.toNat + k) k l) n, false) else none
/-- Whether R175 lists the atomic as a PCIe AtomicOp. -/
def pcieAtomic (a : AtomAct) (r : MWord) : Bool :=
  match a with
  | .comb .add => (r.cp = 0 || r.cp = 1) && r.sz.toNat ≤ 3
  | .comb .exch => r.sz.toNat ≤ 3
  | .cas => true
  | _ => false
/-- The message of an atomic that its target performs. -/
def atomMsg (a : AtomAct) (r : MWord) (g : Group) (l : Nat) (tag : Nat) (dst : Option (Nat × Nat)) (addr : DWord) : Msg :=
  let n := accSize r
  let k := runLen r
  match a with
  | .comb op => .atomic tag dst addr op (atomTy r) (leBytes (g.runVal r.b.toNat k l) n) (g.runPoison r.b.toNat k l)
  | .cas => .cas tag dst addr (leBytes (g.runVal r.b.toNat k l) n) (leBytes (g.runVal (r.b.toNat + k) k l) n)
/-- Whether the target itself performs the atomic (R169): at device or system scope, a peer or a host page that is not
coherent. -/
def atomRemote (r : MWord) (t : Target) : Bool :=
  scDev r.sc.toNat && (match t with
    | .dev _ => false
    | .host _ coh => !coh
    | .peer _ _ _ => true)
/-- The number of a lane's atomic among the parts that a word awaits. -/
def atomKey (l : Nat) : Nat := 2 ^ 58 + l

/-- The progress of an atomic's lanes in their order (R172): the state, what the word awaits and what its lanes have read, the lanes that
a link failed, the target to which the lanes in turn are being sent, and whether the word stops to wait. -/
structure AtomRun where
  s : State
  p : Pend
  failed : List (Nat × Nat)
  batch : Option (Option Nat)
  halt : Bool
deriving DecidableEq, Repr
/-- The core's own copies of an atomic's bytes (R169): dirty ones are written back, and all are discarded. -/
def State.yieldBytes (s : State) (w : Who) (sva o n : Nat) : State :=
  let base := lkey w.asid sva
  (s.writeBackSector w.core (base / 64) (fun q => o ≤ q && q < o + n)).dropBytes w.core (fun k => base + o ≤ k && k < base + o + n)
/-- The fetch that makes a coherent host line the device's own (R169). -/
def ownFetch (w : Who) (x : GenLane) (sva : Nat) : Fetch :=
  { t := x.t.back (va57 x.va % 64), va := canon57 sva, l1 := none, ro := none, own := true,
    llc := some { part := w.part, asid := w.asid, va := sva / 256, bits := x.e.bits, glob := x.e.glob, ctxid := x.e.ctxid, coh := true } }
/-- Whether the last-level cache owns a whole sector of host memory. -/
def State.ownsSector (s : State) (t : Target) : Bool :=
  match t with
  | .host pa _ => s.llcOwned.contains (pa / 64) && (List.range 64).all (fun k => (aget? (pa / 64 * 64 + k) s.llcHost).isSome)
  | _ => true
/-- What an atomic of this device reads at its place (R169): the last-level cache, after the ownership of a host line, or L1. -/
def atomReach (r : MWord) (w : Who) (s : State) (p : Pend) (x : GenLane) : Reach :=
  let n := accSize r
  let o := va57 x.va % 64
  let sva := va57 x.va - o
  let t := x.t.back o
  if scDev r.sc.toNat then
    let s1 := s.yieldBytes w sva o n
    if !s1.ownsSector t then .remote s1 (ownFetch w x sva)
    else s1.loadSector w.core w.asid x.e t sva o n .poc none
  else s.loadSector w.core w.asid x.e t sva o n .l1 (p.sector sva t)
/-- What an atomic of device or system scope leaves at its place (R169): a host line whose page is not cacheable is not kept (R141). -/
def State.placePut (s : State) (w : Who) (x : GenLane) (new : List Byte) (poison : Bool) (op : Option (Nat × Nat) := none) : State :=
  let o := va57 x.va % 64
  let s1 := s.storeSector w.core w.asid { x.e with c := x.e.c || !(x.t matches .dev _) } (x.t.back o) (canon57 (va57 x.va - o))
    ((List.range new.length).map (fun k => (o + k, new.getD k 0))) poison op
  match x.t with
  | .host pa _ => if x.e.c then s1 else (s1.hostLineWb w.core (pa / 256)).dropLines (fun l => l == pa / 256)
  | _ => s1
/-- What an atomic of this device leaves at its place (R169): at block scope bytes of a non-coherent host page are written back at once. -/
def atomPut (r : MWord) (w : Who) (s : State) (x : GenLane) (new : List Byte) (poison : Bool) : State :=
  let o := va57 x.va % 64
  if scDev r.sc.toNat then s.placePut w x new poison
  else s.storeL1 w.core w.asid x.e (x.t.back o) (va57 x.va - o) o new poison (match x.t with
    | .host _ c => !c
    | _ => false)
/-- The REDs that wait for a sector fail with a reason of REMOTE (R173, R186). -/
def State.redFail (s : State) (r : Request) (reason : Nat) : State :=
  r.acts.foldl (fun s a => s.recordDeferred r.core r.ctxid (canon57 (a.sva + a.off)) reason) s
/-- The request of a sector that REDs wait for leaves, or they fail with its link (R173). -/
def State.redRequest (s : State) (r : Request) : State :=
  let msg (tag : Nat) (dst : Option (Nat × Nat)) (a : DWord) : Msg := if r.own then .own tag a else .read tag dst a 64
  match r.target with
  | .dev _ => s
  | .host pa _ =>
    if s.hostUp then
      let q := s.newRequest r
      q.1.send (msg q.2 none (hostPa pa))
    else s.redFail r 3
  | .peer chip x rva =>
    let part := s.linkPart r.core r.ctxid
    if chip = s.chip then (s.redFail r 1).inboundFault x (s.ownKind x rva true) rva
    else if s.chipUp part chip then
      let q := s.newRequest { r with port := s.portTo part chip rva }
      q.1.send (msg q.2 (some (chip, x.toNat)) rva)
    else s.redFail r 3
/-- A RED that waits for its sector joins those that wait for it already, or requests the sector (R173): its group goes on. -/
def State.redWait (s : State) (w : Who) (f : Fetch) (act : RedAct) : State :=
  match s.requests.find? (fun e => e.2.core == w.core && e.2.target == f.t && !e.2.acts.isEmpty) with
  | some (tag, r) => { s with requests := aput tag { r with acts := r.acts ++ [act] } s.requests }
  | none => s.redRequest { f.request w .posted 0 none s.tick with acts := [act] }
/-- A RED performed on its sector, whose bytes a link has brought (R169, R173); none where the host line is not the device's own. -/
def State.redAct (s : State) (r : Request) (bytes : List Byte) (a : RedAct) : Option State :=
  let n := a.data.length
  let new (old : List Byte) : List Byte := leBytes (combine a.op a.ty (8 * n) (leNat old) (leNat a.data)) n
  if a.blk then
    match s.loadSector r.core a.asid a.entry r.target a.sva a.off n .l1 (some (bytes, false)) with
    | .bytes s1 old p => some (s1.storeL1 r.core a.asid a.entry r.target a.sva a.off (new old) (a.poison || p) (match r.target with
        | .host _ c => !c
        | _ => false))
    | .remote _ _ => none
  else if !s.ownsSector r.target then none
  else (s.sectorAt r.target none).map (fun q =>
    s.placePut { s.whoEntry r.core a.entry with asid := a.asid }
      { lane := 0, va := canon57 (a.sva + a.off), e := a.entry, t := r.target.fwd a.off } (new ((q.1.drop a.off).take n)) (a.poison || q.2))
/-- The REDs that waited for a sector performed in their order; those that the host line leaves to wait request it again. -/
def State.redActs (s : State) (r : Request) (bytes : List Byte) : List RedAct → State
  | [] => s
  | a :: l => match s.redAct r bytes a with
    | some s1 => s1.redActs r bytes l
    | none => s.redRequest { r with acts := a :: l, issued := s.tick }
/-- One lane performed on this device as one indivisible step (R169, R172): the old bytes are kept for its D run. The word stops where
a link must bring the sector; a RED does not (R173). -/
def atomLane (a : AtomAct) (red : Bool) (r : MWord) (g : Group) (w : Who) (q : AtomRun) (x : GenLane) : AtomRun :=
  let n := accSize r
  let o := va57 x.va % 64
  let sva := va57 x.va - o
  match aget? (sva / 64) q.p.fails with
  | some f => { q with failed := q.failed ++ [(x.lane, f)] }
  | none =>
    match atomReach r w q.s q.p x with
    | .remote s f =>
      match red, a with
      | true, .comb op =>
        let k := runLen r
        { q with s := s.redWait w f { op, ty := atomTy r, off := o, data := leBytes (g.runVal r.b.toNat k x.lane) n,
                                      poison := g.runPoison r.b.toNat k x.lane, blk := !scDev r.sc.toNat, entry := x.e, asid := w.asid, sva } }
      | _, _ =>
        let h := State.requestPart (s, q.p) (f.request w .load (slotKey s.cur.key s.cur.slot1) none s.tick) f.key f.msg
        { q with s := h.1, p := h.2, halt := true }
    | .bytes s old poison =>
      let p := { q.p with landed := aput (atomKey x.lane) (old, poison) q.p.landed }
      match atomWrite a r g x.lane old poison with
      | none => { q with s, p }
      | some (new, np) =>
        let landed := match aget? (sva / 64) p.landed with
          | some (b, bp) => aput (sva / 64) (b.take o ++ new ++ b.drop (o + n), bp || np) p.landed
          | none => p.landed
        { q with s := atomPut r w s x new np, p := { p with landed } }
/-- A RED that its target performs: a posted write (R173). The core's own copies of its bytes go first (R169). -/
def redPosted (a : AtomAct) (r : MWord) (g : Group) (w : Who) (s0 : State) (x : GenLane) : State :=
  let o := va57 x.va % 64
  let s := s0.yieldBytes w (va57 x.va - o) o (accSize r)
  let rq : Request := blankRequest .posted w.core w.ctxid x.t x.va s.tick
  match x.t with
  | .dev _ => s
  | .host pa _ =>
    if s.hostUp then
      let q := s.newRequest rq
      q.1.send (atomMsg a r g x.lane q.2 none (hostPa pa))
    else s.recordDeferred w.core w.ctxid x.va 3
  | .peer chip c rva =>
    let part := s.linkPart w.core w.ctxid
    if chip = s.chip then (s.recordDeferred w.core w.ctxid x.va 1).inboundFault c (s.ownKind c rva true) rva
    else if s.chipUp part chip then
      let q := s.newRequest { rq with port := s.portTo part chip rva }
      q.1.send (atomMsg a r g x.lane q.2 (some (chip, c.toNat)) rva)
    else s.recordDeferred w.core w.ctxid x.va 3
/-- A lane whose atomic its target performs is sent (R169, R173), in the order of the lanes: lanes that follow one another to one target
are sent together, which performs them in the order sent. -/
def atomSend (a : AtomAct) (r : MWord) (g : Group) (w : Who) (q : AtomRun) (x : GenLane) : AtomRun :=
  let dst : Option Nat := match x.t with
    | .peer c _ _ => some c
    | _ => none
  if q.batch.any (fun b => b != dst) then { q with halt := true }
  else
    let o := va57 x.va % 64
    let s := q.s.yieldBytes w (va57 x.va - o) o (accSize r)
    let h := State.requestPart (s, q.p) { blankRequest .atomic w.core w.ctxid x.t x.va s.tick with key := slotKey s.cur.key s.cur.slot1 }
      (atomKey x.lane) (atomMsg a r g x.lane)
    { q with s := h.1, p := h.2, batch := some dst }
/-- One lane in its turn (R172): where a lane before it waits, it waits too. -/
def atomStep (a : AtomAct) (red : Bool) (r : MWord) (g : Group) (w : Who) (q : AtomRun) (x : GenLane) : AtomRun :=
  if q.halt then q
  else if atomRemote r x.t then
    if red then { q with s := redPosted a r g w q.s x } else atomSend a r g w q x
  else if q.batch.isSome then { q with halt := true }
  else atomLane a red r g w q x
/-- The lanes of a word that are performed already, or whose target has answered. -/
def answered (p : Pend) : Mask := maskOf (fun l => (aget? (atomKey l) p.landed).isSome || (aget? (atomKey l) p.fails).isSome)
/-- An atomic on generic memory (R172): `red` says that it gives no old value. The lanes are performed in ascending order, and the word
runs again from the first that is not performed. -/
def genAtomic (a : AtomAct) (red : Bool) (r : MWord) (s : State) (g : Group) (m : Mask) : Res State := do
  g.consume 4 m [(r.a.toNat, 2, r.au)]
  if a == .cas then g.consume 6 m [(r.b.toNat, 2 * runLen r, false)]
  let n := accSize r
  alignCheck m (fun l => ((genAddr g r l).toNat : Int)) n r.sz.toNat
  let w := s.whoGroup g
  let key := s.cur.key
  let slot1 := s.cur.slot1
  let first := (g.pendOf slot1).isNone
  let p := (g.pendOf slot1).getD Pend.empty
  if !p.waiting.isEmpty then .error (.wait s .none)
  if !red && s.redMeets w m (genAddr g r) then .error (.wait s .settle)
  let lost (l : Nat) : Option Nat := aget? (va57 (genAddr g r l) / 64) p.fails
  let done := answered p ||| (m &&& maskOf (fun l => (lost l).isSome))
  let pl := s.genPlan w g slot1 (m &&& ~~~done) (genAddr g r) n (if scDev r.sc.toNat then .atomicDev else .atomicBlk)
    (!red) true true (s.atomicOpEn && pcieAtomic a r)
  let s1 ← if first && r.ord.getLsbD 1 && !pl.good.isEmpty then pl.s.release g w.ctxid r.sc.toNat (g.mask slot1) else pure pl.s
  let q := pl.good.foldl (atomStep a red r g w) { s := s1, p, failed := [], batch := none, halt := false }
  if q.halt || !q.p.waiting.isEmpty then
    .error (.wait (q.s.modGroup key (fun h => h.setPend slot1 (some q.p))) .none)
  else
    let rows := (Mask.toLanes m).filterMap (fun l => (aget? (atomKey l) q.p.landed).map (fun b => (l, b)))
    let failed := q.failed ++ (Mask.toLanes done).filterMap (fun l => ((aget? (atomKey l) p.fails).or (lost l)).map (fun f => (l, f)))
    let s2 := if red then q.s
      else q.s.modGroup key (fun h => rows.foldl (fun h x => h.landRow r.d.toNat x.1 false x.2.1 x.2.2) h)
    let s3 := if red || !scDev r.sc.toNat then s2
      else (Mask.toLanes (answered p)).foldl (fun s l =>
        let va := va57 (genAddr g r l)
        s.dropClean w.core w.asid (va - va % 64) (va % 64) n) s2
    let s4 := if r.ord.getLsbD 0 then s3.acquire w.core r.sc.toNat else s3
    if failed.isEmpty then afterLanes s4 pl.stop
    else if red then
      afterLanes (failed.foldl (fun s f => s.recordDeferred w.core w.ctxid (genAddr g r f.1) (f.2 % 16)) s4) pl.stop
    else remoteFail s4 key slot1 m (maskOf (fun l => rows.any (fun x => x.1 == l))) failed (genAddr g r)
/-- An atomic on the scratchpad (R169, R172). -/
def scrAtomic (a : AtomAct) (r : MWord) (s : State) (g : Group) (m : Mask) : Res State := do
  g.consume 4 m [(r.a.toNat, 1, r.au)]
  if a == .cas then g.consume 6 m [(r.b.toNat, 2 * runLen r, false)]
  let n := accSize r
  alignCheck m (scrAddr g r) n r.sz.toNat
  let pl := s.scrPlan (s.whoGroup g) g s.cur.slot1 m (scrAddr g r) n true true true
  let s1 := pl.good.foldl (fun s x =>
    let old := s.scrRead g.blk x.place n
    let s1 := match atomWrite a r g x.lane old.1 old.2 with
      | some (new, np) => s.scrWrite g.blk x.place new np
      | none => s
    s1.modGroup s.cur.key (fun h => h.landRow r.d.toNat x.lane false old.1 old.2)) pl.s
  afterLanes s1 pl.stop

/-- A word of ATOM, CAS or RED. -/
def atomWord (i : Instr) (a : AtomAct) (red : Bool) (r : MWord) (s : State) : Out State :=
  issue i s (fun g m => if m = 0 then .ok s.advance else genAtomic a red r s g m)
/-- A word of ATOMS or CASS. -/
def atomsWord (i : Instr) (a : AtomAct) (r : MWord) (s : State) : Out State :=
  issue i s (fun g m => if m = 0 then .ok s.advance else scrAtomic a r s g m)

/-- ATOM.ADD. -/
def execAtomAdd (r : MWord) (s : State) : Out State := atomWord (.atomAdd r) (.comb .add) false r s
/-- ATOM.MIN. -/
def execAtomMin (r : MWord) (s : State) : Out State := atomWord (.atomMin r) (.comb .min) false r s
/-- ATOM.MAX. -/
def execAtomMax (r : MWord) (s : State) : Out State := atomWord (.atomMax r) (.comb .max) false r s
/-- ATOM.AND. -/
def execAtomAnd (r : MWord) (s : State) : Out State := atomWord (.atomAnd r) (.comb .and) false r s
/-- ATOM.OR. -/
def execAtomOr (r : MWord) (s : State) : Out State := atomWord (.atomOr r) (.comb .or) false r s
/-- ATOM.XOR. -/
def execAtomXor (r : MWord) (s : State) : Out State := atomWord (.atomXor r) (.comb .xor) false r s
/-- ATOM.EXCH. -/
def execAtomExch (r : MWord) (s : State) : Out State := atomWord (.atomExch r) (.comb .exch) false r s
/-- CAS. -/
def execCas (r : MWord) (s : State) : Out State := atomWord (.cas r) .cas false r s
/-- RED.ADD. -/
def execRedAdd (r : MWord) (s : State) : Out State := atomWord (.redAdd r) (.comb .add) true r s
/-- RED.MIN. -/
def execRedMin (r : MWord) (s : State) : Out State := atomWord (.redMin r) (.comb .min) true r s
/-- RED.MAX. -/
def execRedMax (r : MWord) (s : State) : Out State := atomWord (.redMax r) (.comb .max) true r s
/-- RED.AND. -/
def execRedAnd (r : MWord) (s : State) : Out State := atomWord (.redAnd r) (.comb .and) true r s
/-- RED.OR. -/
def execRedOr (r : MWord) (s : State) : Out State := atomWord (.redOr r) (.comb .or) true r s
/-- RED.XOR. -/
def execRedXor (r : MWord) (s : State) : Out State := atomWord (.redXor r) (.comb .xor) true r s
/-- ATOMS.ADD. -/
def execAtomsAdd (r : MWord) (s : State) : Out State := atomsWord (.atomsAdd r) (.comb .add) r s
/-- ATOMS.MIN. -/
def execAtomsMin (r : MWord) (s : State) : Out State := atomsWord (.atomsMin r) (.comb .min) r s
/-- ATOMS.MAX. -/
def execAtomsMax (r : MWord) (s : State) : Out State := atomsWord (.atomsMax r) (.comb .max) r s
/-- ATOMS.AND. -/
def execAtomsAnd (r : MWord) (s : State) : Out State := atomsWord (.atomsAnd r) (.comb .and) r s
/-- ATOMS.OR. -/
def execAtomsOr (r : MWord) (s : State) : Out State := atomsWord (.atomsOr r) (.comb .or) r s
/-- ATOMS.XOR. -/
def execAtomsXor (r : MWord) (s : State) : Out State := atomsWord (.atomsXor r) (.comb .xor) r s
/-- ATOMS.EXCH. -/
def execAtomsExch (r : MWord) (s : State) : Out State := atomsWord (.atomsExch r) (.comb .exch) r s
/-- CASS. -/
def execCass (r : MWord) (s : State) : Out State := atomsWord (.cass r) .cas r s

end Sys2Proof.Machine
end

