-- ==== Sys2Proof/Machine/Groups.lean ====
section
/-! DEFINITION. What the groups of a block share: the departures of block and gang barriers (R176, R254, R298), and the end of a
group (R88). -/
namespace Sys2Proof.Machine

/-! ## Registers -/

/-- Registers of a core that no user group holds (R245, R249). -/
def State.freeRegs (s : State) (c : Nat) : Nat :=
  131072 - (s.groups.filter (fun e => e.2.core == c && !e.2.isSup && e.2.state != .ended)).foldl (fun n e => n + 32 * e.2.allot) 0

/-! ## Departures -/

/-- The departure of one group from the wait w: its slot 0 goes on after the word; inside an entry, the saved PC does (DEDUCED, log 19). -/
def Group.depart (g : Group) (w : Wait) : Group :=
  if g.wait = w then g.advance false
  else if g.inEntry ∧ g.arrWait = w then { g with spc := g.spc + 8, sretry := Retry.none, arr := false, arrWait := .none }
  else g
/-- Every group of block b that waits in w departs. -/
def State.departAll (s : State) (b : Nat) (w : Wait) : State :=
  (s.liveGroups b).foldl (fun s k => s.modGroup k (fun g => g.depart w)) s
/-- The departure of BAR id, where its arrivals suffice (R176). -/
def State.settleBar (s : State) (b id : Nat) : State :=
  match aget? b s.blocks with
  | none => s
  | some k =>
    match aget? id k.bars with
    | none => s
    | some x =>
      let e := if x.cnt then x.e else (s.liveGroups b).length
      if x.arrivals ≠ 0 ∧ e ≤ x.arrivals then
        (s.modBlock b (fun k => { k with bars := adel id k.bars })).departAll b (.bar id)
      else s
/-- Whether a call of the block form is being served for the block (R298). -/
def State.blockCallOpen (s : State) (b : Nat) : Bool :=
  s.groups.any (fun e => e.2.blk == some b && e.2.parked && e.2.trap.cause == 16 && e.2.trap.w0.getLsbD 12)
/-- A group of the block parks at its SYSCALLB. -/
def State.parkAt (s : State) (key : Nat) (t : Mask → Trap) : State :=
  match s.group? key with
  | some g => s.takeTrapAt key g false g.pc0 (t g.mask0)
  | none => s
/-- SYSCALLB once every group that has not ended has arrived (R298): differing numbers trap every group; else the lowest GROUPID makes the
call for its lowest lane. A group that has taken an entry since has arrived, and it traps when TRET has brought it back to its word
(DEDUCED, log 19). -/
def State.settleCall (s : State) (b : Nat) : State :=
  match aget? b s.blocks with
  | none => s
  | some k =>
    let live := s.liveGroups b
    let arrived := live.filter (fun x => (aget? (x % 32) k.sysArrived).isSome)
    let stands (x : Nat) : Bool := (s.group? x).any (fun g => g.wait == .syscallb)
    match live with
    | [] => s
    | first :: _ =>
      if arrived.length < live.length || s.blockCallOpen b then s
      else
        let nums := live.map (fun x => aval 0 (x % 32) k.sysArrived)
        let n := nums.headD 0
        if nums.any (fun x => x != n) then
          (live.filter stands).foldl (fun s x => s.parkAt x (fun m => trap0 19 10 m)) (s.modBlock b (fun k =>
            { k with sysArrived := [], sysBad := (live.filter (fun x => !stands x)).map (fun x => x % 32) }))
        else if !stands first then s
        else
          s.parkAt first (fun m =>
            let bit : Mask := 1#32 <<< lowLane m
            { cause := 16, w0 := BitVec.ofNat 32 (n + 4096), w1 := bit, w2 := 0, lanes := bit, unfin := 0 })
/-- Whether a member of a block's gang is away: on its return list, or promised to a core and not yet back (R243, R309). -/
def State.gangAway (s : State) (b : Block) (gang : Nat) : Bool :=
  let mate (x : Swapped) : Bool := x.linear / gang == b.linear / gang
  (s.gridOf b).any (fun g => g.returns.any mate) ||
    s.cores.any (fun e => e.2.reserve.any (fun r => r.2.part == b.part && r.2.seq == b.seq && mate r.2.entry))
/-- GANGBAR once every group of the gang that has not ended has arrived (R254): all depart, and each core refreshes. While a member is
away, they wait for its return. -/
def State.settleGang (s : State) (b : Nat) : State :=
  match aget? b s.blocks with
  | none => s
  | some k =>
    let gang := ((s.gridOf k).map Grid.gang).getD 0
    let bs := s.gangHere k.part k.seq (k.linear / gang)
    let keys := bs.flatMap (fun e => s.liveGroups e.1)
    let here (x : Nat) : Bool := match s.group? x with
      | some g => g.wait = .gangbar || (g.inEntry && g.arrWait = .gangbar)
      | none => false
    if gang = 0 || s.gangAway k gang || !keys.any here || !keys.all here then s
    else bs.foldl (fun s e =>
      ((s.modBlock e.1 (fun k => { k with gangArrived := 0, gangPhase := !k.gangPhase })).departAll e.1 .gangbar).acquire e.2.core 2) s
/-- Every departure that the state of a block allows: when a group ends, the counts that wait for it fall. -/
def State.settleBlock (s : State) (b : Nat) : State :=
  (((List.range 16).foldl (fun s id => s.settleBar b id) s).settleCall b).settleGang b

/-! ## The end of a group -/

/-- The group has ended (R88, R249, R252, R259, R262): its registers and its position are free, its endpoints retire, its
children are forgotten, and barriers that wait for it are settled. -/
def State.endGroup (s : State) (key : Nat) (g : Group) : State :=
  let g' := { g with live := 0, mask0 := 0, mask1 := 0, run1 := false, state := .ended, wait := .none, v := [], vPoison := [],
                     pos := none, retry0 := Retry.none, retry1 := Retry.none, pend0 := none, pend1 := none, settle1 := false }
  let s1 := s.setGroup key g'
  match g.blk, s.blockOf g with
  | some bn, some b =>
    let s2 := s1.retireEps g.core b.ctxid (fun r => r.handledBy b g.gid)
    let s3 := { s2 with grids := s2.grids.map (fun (e : Nat × Grid) =>
      (e.1, if e.2.part == b.part && e.2.parent == some (b.seq, b.linear, g.gid) then { e.2 with collected := true } else e.2)) }
    s3.settleBlock bn
  | _, _ => s1

end Sys2Proof.Machine
end

