-- ==== Sys2Proof/Machine/Engines.lean ====
section
/-! DEFINITION. Transaction barrier states (R177, R180), and the copy and gather engines: slots, movement in canonical order,
failures and their surfacing, and the words of the class (R189 to R211). -/
namespace Sys2Proof.Machine

/-! ## Transaction barrier states -/

/-- A transaction barrier's state word (R177). -/
structure Tb where
  v : Bool
  ph : Bool
  er : Bool
  exp : Nat
  pend : Nat
  tx : Int
deriving DecidableEq, Repr
/-- The fields of a state word. -/
def tbOf (w : DWord) : Tb :=
  { v := w.getLsbD 63, ph := w.getLsbD 62, er := w.getLsbD 61, exp := (w.extractLsb' 44 12).toNat, pend := (w.extractLsb' 32 12).toNat,
    tx := (w.extractLsb' 0 32).toInt }
/-- The state word of fields. -/
def Tb.word (t : Tb) : DWord :=
  BitVec.ofNat 64 ((if t.v then 2 ^ 63 else 0) + (if t.ph then 2 ^ 62 else 0) + (if t.er then 2 ^ 61 else 0) + t.exp % 4096 * 2 ^ 44 +
    t.pend % 4096 * 2 ^ 32 + (BitVec.ofInt 32 t.tx).toNat)
/-- The state of a block's barrier n. -/
def Block.tb (b : Block) (n : Nat) : Tb := tbOf (aval 0 n b.tbars)
/-- Barrier n of a block becomes t. -/
def State.setTb (s : State) (b n : Nat) (t : Tb) : State := s.modBlock b (fun k => { k with tbars := aset 0 n t.word k.tbars })
/-- Whether a TBWAIT of the parity goes on (R179). -/
def Tb.ready (t : Tb) (parity : Bool) : Bool := t.ph != parity || t.er || !t.v
/-- The reason of R181 that the checks of a TBWAIT on an allotted barrier meet, 0 where they pass. -/
def Tb.waitReason (t : Tb) : Nat := if !t.v then 2 else if t.er then 3 else 0
/-- Barrier n of a block becomes t, and the groups of the block that it lets go on are woken: they make their checks now (R179). -/
def State.putTb (s : State) (b n : Nat) (t : Tb) : State :=
  let s1 := s.setTb b n t
  { s1 with groups := s1.groups.map (fun (e : Nat × Group) =>
      match e.2.wait with
      | .tbwait k parity => if e.2.blk == some b && k == n && t.ready parity then (e.1, { e.2 with wait := .tbwoken t.waitReason }) else e
      | _ => e) }
/-- Settle (R179). -/
def Tb.settle (t : Tb) : Tb :=
  if t.pend = 0 ∧ t.tx = 0 then { t with ph := !t.ph, pend := t.exp }
  else if t.pend = 0 ∧ t.tx < 0 then { t with er := true }
  else t
/-- TX stays in its range (R179). -/
def txOk (x : Int) : Bool := -(2 ^ 31 : Int) ≤ x && x < 2 ^ 31
/-- n bytes complete onto a barrier (R180). -/
def State.tbBytes (s : State) (b n bytes : Nat) : State :=
  match aget? b s.blocks with
  | none => s
  | some k =>
    let t := k.tb n
    if !t.v then s
    else if !txOk (t.tx - bytes) then s.putTb b n { t with er := true }
    else s.putTb b n ({ t with tx := t.tx - bytes }).settle

/-! ## Operations -/

/-- The core's operations changed by f. -/
def State.modOps (s : State) (c : Nat) (f : List EngineOp → List EngineOp) : State := s.modCore c (fun k => { k with ops := f k.ops })
/-- The operation with a number. -/
def State.op? (s : State) (c id : Nat) : Option EngineOp := (s.core c).ops.find? (fun o => o.id == id)
/-- The operation becomes o. -/
def State.setOp (s : State) (c : Nat) (o : EngineOp) : State := s.modOps c (fun l => l.map (fun x => if x.id == o.id then o else x))
/-- The operation is gone, and its slot is free. -/
def State.delOp (s : State) (c id : Nat) : State := s.modOps c (fun l => l.filter (fun x => x.id != id))
/-- Slots of a class (R11). -/
def slotCount (gather : Bool) : Nat := if gather then 256 else 1024
/-- The slot that an operation takes: R189 says a free slot, and the model takes the lowest (DESIGN CHOICE, log 68). -/
def State.freeSlot (s : State) (c : Nat) (gather : Bool) : Option Nat :=
  (List.range (slotCount gather)).find? (fun n => !(s.core c).ops.any (fun o => o.gather == gather && o.slot == some n))
/-- The operations of one group and class, in issue order. -/
def State.opsOf (s : State) (c key : Nat) (gather : Bool) : List EngineOp :=
  (s.core c).ops.filter (fun o => opKey c o == key && o.gather == gather)
/-- The group's counter of a class. -/
def Group.count (g : Group) (gather : Bool) : Nat := if gather then g.cgath else g.ccopy
/-- The counter becomes n. -/
def Group.setCount (g : Group) (gather : Bool) (n : Nat) : Group := if gather then { g with cgath := n } else { g with ccopy := n }
/-- The mooring entry of an operation is withdrawn. -/
def State.withdrawOp (s : State) (c id : Nat) : State :=
  s.modCore c (fun k => { k with mq := k.mq.filter (fun e => !(e.2.kind == 2 && e.2.op == some id)) })
/-- Operations of a group and class are reported in order (R190): one that has completed gives up its slot, one that has failed
keeps it until it surfaces. -/
def State.report (s : State) (c key : Nat) (gather : Bool) : State :=
  ((s.opsOf c key gather).filter (fun o => !o.reported)).foldl (fun (q : State × Bool) (o : EngineOp) =>
    if !q.2 then q
    else if o.complete || o.state == 3 then
      let s1 := q.1.modGroup key (fun g => g.setCount gather (g.count gather - 1))
      (if o.state == 3 then s1.setOp c { o with reported := true } else s1.delOp c o.id, true)
    else (q.1, false)) (s, true) |>.1
/-- An operation fails (R207, R208): the latest of the device's failures (R239). -/
def State.failOp (s : State) (c : Nat) (o : EngineOp) (reason code : Nat) (addr : DWord) : State :=
  let s1 := (s.withdrawOp c o.id).setOp c
    { o with state := 3, freason := reason, fcode := code, faddr := addr, pend := Pend.empty, failAge := s.failSeq }
  { s1 with failSeq := s.failSeq + 1 }.report c (opKey c o) o.gather
/-- An operation moors (R207). -/
def State.moorOp (s : State) (c : Nat) (o : EngineOp) (kind : Nat) (addr : DWord) : State :=
  let o1 := { o with state := 2, fcode := kind, faddr := addr, pend := Pend.empty }
  ((s.setOp c o1).postMoor c ((s.setOp c o1).opMoor c o1)).1
/-- The link code of a failed part (R380), from W0 of its REMOTE trap, above which a code of its own may stand at bit 40; a target's
own fault keeps its kind. -/
def linkCode (w0 : Nat) : Nat :=
  let reason := w0 % 16
  let kind := w0 / 16 % 16
  if 2 ^ 40 ≤ w0 then w0 / 2 ^ 40 else if reason = 2 then 32 else if reason = 3 then 33 else if kind ≠ 0 then kind else 35

/-! ## The bytes of one access -/

/-- Why an operation cannot go on: a fault at an address, a sector that a link must bring, a failed link, a member on this chip that
refuses, a RED of its core that the sector waits for, a poisoned index. -/
inductive EngStop where
  | fault (kind : Nat) (va : DWord)
  | need (s : State) (f : Fetch)
  | link (code : Nat) (va : DWord)
  | member (ctxid : BitVec 16) (kind : Nat) (rva va : DWord)
  | busy
  | badIndex
deriving DecidableEq, Repr
/-- The identity of an operation's accesses (R191). -/
def State.whoOp (s : State) (c : Nat) (o : EngineOp) : Who :=
  match o.blk.bind (fun b => aget? b s.blocks) with
  | some b => s.whoCtx c b.ctxid
  | none => { core := c, part := (s.core c).part, asid := 0, root := s.root0 (s.core c).part, user := false, secure := true, ctxid := 0, ok := true }
/-- A generic read of n bytes within one sector (R182 item 1): at the point of coherence, merged with the core's dirty bytes. -/
def State.engRead (s : State) (w : Who) (p : Pend) (va : DWord) (n : Nat) : Except EngStop (State × List Byte × Bool) :=
  let o := va57 va % 64
  let sva := va57 va - o
  let base := lkey w.asid sva
  match aget? (sva / 64) p.fails with
  | some f => .error (.link (linkCode f) va)
  | none =>
    if s.redOn w.core (base / 64) then .error .busy
    else match s.checkByte w .read va true with
    | .error k => .error (.fault k va)
    | .ok (e, t) =>
      let tb := t.back o
      let s1 := s.fillPerm w.core e
      let tag := s1.lineTag w.core w.asid e tb (canon57 sva)
      let s2 := match tb with
        | .dev pa => s1.recall noCore pa
        | _ => s1.moveLine w.core tb tag
      match s2.sectorAt tb (p.sector sva tb) with
      | none => .error (.need s2 { t := tb, va := canon57 sva, l1 := none, ro := none, llc := tag, own := false })
      | some (b, poison) =>
        let k := s2.core w.core
        let keys := (List.range n).map (fun j => base + o + j)
        .ok (s2, keys.map (fun q => match aget? q k.l1 with | some (x, true) => x | _ => b.getD (q % 64) 0),
          poison || (!(k.dirtyOf (base / 64)).isEmpty && k.badL1 (base / 64)))
/-- Why a write to a target cannot leave (R334, R380): a port that is down, or a member on this chip that refuses. -/
def State.linkBad (s : State) (w : Who) (t : Target) (va : DWord) : Option EngStop :=
  match t with
  | .dev _ => none
  | .host _ _ => if s.hostUp then none else some (.link 33 va)
  | .peer chip x rva =>
    if chip = s.chip then some (.member x (s.ownKind x rva true) rva va)
    else if s.chipUp (s.linkPart w.core w.ctxid) chip then none else some (.link 33 va)
/-- Whether a write to a target can leave. -/
def State.linkUp (s : State) (w : Who) (t : Target) : Bool := (s.linkBad w t 0).isNone
/-- A generic write of bytes within one sector (R182 item 2): at the point of coherence; the core's L1 copies go. -/
def State.engWrite (s : State) (w : Who) (op : Option (Nat × Nat)) (va : DWord) (bytes : List Byte) (poison : Bool) :
    Except EngStop State :=
  let base := lkey w.asid (va57 va)
  if s.redOn w.core (base / 64) then .error .busy
  else match s.checkByte w .write va true with
  | .error k => .error (.fault k va)
  | .ok (e, t) =>
    let o := va57 va % 64
    match s.linkBad w t va with
    | some x => .error x
    | none =>
      let s1 := (s.fillPerm w.core e).dropBytes w.core (fun k => base ≤ k && k < base + bytes.length)
      let s2 := match t with
        | .dev pa => s1.recall noCore pa
        | _ => s1
      .ok (s2.storeSector w.core w.asid e (t.back o) (canon57 (va57 va / 64 * 64))
        ((List.range bytes.length).map (fun k => (o + k, bytes.getD k 0))) poison op)
/-- One combining add of SCAT (R202): at the place of R169 for scope 2. -/
def State.engAdd (s : State) (w : Who) (op : Option (Nat × Nat)) (p : Pend) (va : DWord) (bf16m : Bool) (x : List Byte)
    (poison : Bool) : Except EngStop State :=
  let n := x.length
  let o := va57 va % 64
  let sva := va57 va - o
  let base := lkey w.asid sva
  if s.redOn w.core (base / 64) then .error .busy
  else match s.checkByte w .atomicDev va false with
  | .error k => .error (.fault k va)
  | .ok (e, t) =>
    let tb := t.back o
    match s.linkBad w t va with
    | some x => .error x
    | none =>
      let s1 := (s.fillPerm w.core e).yieldBytes w sva o n
      match t with
      | .peer chip c rva =>
        let r := s1.newRequest { blankRequest .posted w.core w.ctxid t va s.tick with
          op, port := s1.portTo (s1.linkPart w.core w.ctxid) chip rva }
        .ok (r.1.send (.atomic r.2 (some (chip, c.toNat)) rva .add (if bf16m then .bf16x2 else .flt) x poison))
      | _ =>
        match aget? (sva / 64) p.fails with
        | some f => .error (.link (linkCode f) va)
        | none =>
          let lane : GenLane := { lane := 0, va, e, t }
          if !s1.ownsSector tb then .error (.need s1 (ownFetch w lane sva))
          else
            let s2 := match tb with
              | .dev pa => s1.recall noCore pa
              | _ => s1
            match s2.sectorAt tb none with
            | none => .error (.need s2 (ownFetch w lane sva))
            | some (b, bp) =>
              let f := if bf16m then bf16 else f32
              let old := leNat ((b.drop o).take n)
              let new := leBytes ((roundTo f (exAdd 0 (f.dec old) (f.dec (leNat x))).1 0 false 0).1) n
              .ok (s2.placePut w lane new (poison || bp) op)

/-- Why one combining add could not be performed now (R202): a row's adds begin once every one of them can, so that none is performed
twice. -/
def State.addNeeds (s : State) (w : Who) (p : Pend) (va : DWord) (n : Nat) : Option EngStop :=
  match s.engAdd w none p va false (List.replicate n 0) false with
  | .error e => some e
  | .ok _ => none

/-! ## Movement in canonical order -/

/-- The destination space of CPY and CPYF is the scratchpad. -/
def EngineOp.dScr (o : EngineOp) : Bool := o.xop.extractLsb' 6 2 == 1
/-- The source space of CPY is the scratchpad. -/
def EngineOp.sScr (o : EngineOp) : Bool := o.xop.extractLsb' 4 2 == 1
/-- DIR of CPYT: out of the scratchpad. -/
def EngineOp.dirOut (o : EngineOp) : Bool := o.xop.getLsbD 7
/-- Register k of the descriptor. -/
def EngineOp.par (o : EngineOp) (k : Nat) : Nat := (o.param.getD k 0).toNat
/-- One access of CPY and CPYF (R195): as much as one sector of each side and the budget allow, which is one write for the clearing of
poison (R147; DESIGN CHOICE, log 61: no rule says how many bytes one engine write covers). A destination byte that is also a source byte
of the operation takes a free value (R191; DESIGN CHOICE, log 5). -/
def engLinear (s : State) (c : Nat) (o : EngineOp) (budget : Nat) : Except EngStop (State × Nat) :=
  let w := s.whoOp c o
  let d := o.dst + BitVec.ofNat 64 o.done
  let src := o.src + BitVec.ofNat 64 o.done
  let m := min (min budget (o.len - o.done)) (64 - d.toNat % 64)
  let m := if o.kind = 1 then min m (64 - src.toNat % 64) else m
  do
    let (s1, b, poison) ←
      if o.kind = 3 then
        pure (s, (List.range m).map (fun k => o.src.extractLsb' (8 * ((d.toNat + k) % 8)) 8), o.patPoison)
      else if o.sScr then
        let x := s.scrRead o.blk (.loc src.toNat) m
        pure (s, x.1, x.2)
      else s.engRead w o.pend src m
    let shared (k : Nat) : Bool := o.kind == 1 && o.dScr == o.sScr && (d + BitVec.ofNat 64 k - o.src).toNat < o.len
    let b := (List.range m).map (fun k => if shared k then Config.freeByte (s1.freeCtr + k) else b.getD k 0)
    let s1 := if (List.range m).any shared then s1.takeFree m else s1
    let s2 ← if o.dScr then pure (s1.scrWrite o.blk (.loc d.toNat) b poison) else s1.engWrite w (some (c, o.id)) d b poison
    pure (s2, m)
/-- Swz (R199). -/
def swz (code o : Nat) : Nat :=
  if code = 0 then o else
    let span := 64 * 2 ^ code
    o ^^^ (16 * (o / span % (span / 16)))
/-- BOXk of a descriptor (R196). -/
def boxOf (par : Nat → Nat) (k : Nat) : Nat := (if k < 4 then par 13 / 2 ^ (8 * k) % 256 else par 14 % 256) + 1
/-- ES in bytes, ND, TR, SWZ and PM of CFG (R196). -/
def cfgEs (cfg : Nat) : Nat := 2 ^ (cfg % 4)
def cfgNd (cfg : Nat) : Nat := cfg / 4 % 8
def cfgTr (cfg : Nat) : Bool := cfg / 32 % 2 == 1
def cfgSwz (cfg : Nat) : Nat := cfg / 64 % 4
def cfgPm (cfg : Nat) : Bool := cfg / 256 % 2 == 1
/-- BASE of a descriptor. -/
def EngineOp.base (o : EngineOp) : Nat := o.par 0 + 2 ^ 32 * o.par 1
/-- The box position of element q: digit k of q in the mixed base of the BOX sizes (R198). -/
def boxPos (par : Nat → Nat) (q k : Nat) : Nat := q / ((List.range k).map (boxOf par)).prod % boxOf par k
/-- Where element q of a tile stands (R198): whether it lies in the tensor, its generic address, its scratchpad offset. -/
structure TilePos where
  inb : Bool
  addr : DWord
  off : Nat
deriving DecidableEq, Repr
/-- The place of element q (R198, R199). -/
def tilePos (o : EngineOp) (q : Nat) : TilePos :=
  let par := o.par
  let cfg := par 2
  let es := cfgEs cfg
  let nd := cfgNd cfg
  let i := boxPos par q
  let gk (k : Nat) : Int := ((o.coord.getD k 0).toInt : Int) + i k
  let a : Int := (o.base : Int) + es * gk 0 + ((List.range (nd - 1)).map (fun k => 16 * ((par (9 + k) : Nat) : Int) * gk (k + 1))).sum
  let low := if cfgTr cfg then i 1 + boxOf par 1 * i 0 else i 0 + boxOf par 0 * i 1
  let n := low + boxOf par 0 * boxOf par 1 * (i 2 + boxOf par 2 * (i 3 + boxOf par 3 * i 4))
  { inb := (List.range nd).all (fun k => 0 ≤ gk k && gk k < (par (4 + k) : Int)), addr := BitVec.ofInt 64 a,
    off := swz (cfgSwz cfg) (o.dst.toNat + es * n) }
/-- One element of CPYT, or the rest of one (R198), which is one write for the clearing of poison (R147; DESIGN CHOICE, log 61). -/
def engElem (s : State) (c : Nat) (o : EngineOp) (budget : Nat) : Except EngStop (State × Nat) :=
  let w := s.whoOp c o
  let cfg := o.par 2
  let es := cfgEs cfg
  let r := o.done % es
  let m := min (min budget (es - r)) (o.len - o.done)
  let t := tilePos o (o.done / es)
  let av := t.addr + BitVec.ofNat 64 r
  if o.dirOut then
    if t.inb then do
      let x := s.scrRead o.blk (.loc (t.off + r)) m
      let s1 ← s.engWrite w (some (c, o.id)) av x.1 x.2
      pure (s1, m)
    else .ok (s, m)
  else if t.inb then do
    let (s1, b, poison) ← s.engRead w o.pend av m
    pure (s1.scrWrite o.blk (.loc (t.off + r)) b poison, m)
  else
    let pad := if cfgPm cfg then o.par 3 + 2 ^ 32 * o.par 3 else 0
    .ok (s.scrWrite o.blk (.loc (t.off + r)) (((leBytes pad es).drop r).take m) false, m)
/-- The pieces of a row of n bytes from generic address g and scratchpad offset d that lie in one sector on both sides. -/
def rowPieces (fuel : Nat) (g : DWord) (d n : Nat) : List (DWord × Nat × Nat) :=
  match fuel with
  | 0 => []
  | fuel + 1 =>
    if n = 0 then [] else
      let m := min n (min (64 - g.toNat % 64) (64 - d % 64))
      (g, d, m) :: rowPieces fuel (g + BitVec.ofNat 64 m) (d + m) (n - m)
/-- A scratchpad write of GATH at offset d: a byte that lies in the operation's index list takes a free value (R191; DESIGN CHOICE, log 5). -/
def State.gathWrite (s : State) (o : EngineOp) (d : Nat) (b : List Byte) (poison : Bool) : State :=
  let shared (k : Nat) : Bool := o.par 4 ≤ d + k && d + k < o.par 4 + 4 * o.par 5
  let n := b.length
  let b1 := (List.range n).map (fun k => if shared k then Config.freeByte (s.freeCtr + k) else b.getD k 0)
  (if (List.range n).any shared then s.takeFree n else s).scrWrite o.blk (.loc d) b1 poison
/-- One row of GATH or SCAT (R202). -/
def engRow (s : State) (c : Nat) (o : EngineOp) : Except EngStop (State × Nat) :=
  let w := s.whoOp c o
  let rowb := o.par 3
  let r := o.done / rowb
  let d := o.par 6 + rowb * r
  let ix := s.scrRead o.blk (.loc (o.par 4 + 4 * r)) 4
  let idx := leNat ix.1
  let g : DWord := BitVec.ofNat 64 (o.base + idx * o.par 2)
  let op := some (c, o.id)
  let cm := (o.xop.extractLsb' 6 2).toNat
  if ix.2 then .error .badIndex
  else if idx = 0xFFFFFFFF then
    .ok (if o.kind = 4 then s.gathWrite o d (List.replicate rowb 0) false else s, rowb)
  else do
    let s1 ← if o.kind = 4 then
        (rowPieces rowb g d rowb).foldlM (fun s q => do
          let (s1, b, poison) ← s.engRead w o.pend q.1 q.2.2
          pure (s1.gathWrite o q.2.1 b poison)) s
      else if cm = 0 then
        (rowPieces rowb g d rowb).foldlM (fun s q =>
          let x := s.scrRead o.blk (.loc q.2.1) q.2.2
          s.engWrite w op q.1 x.1 x.2) s
      else
        let n := if cm = 1 then 4 else 2
        match (List.range (rowb / n)).findSome? (fun k => s.addNeeds w o.pend (g + BitVec.ofNat 64 (n * k)) n) with
        | some stop => .error stop
        | none => (List.range (rowb / n)).foldlM (fun s k =>
            let x := s.scrRead o.blk (.loc (d + n * k)) n
            s.engAdd w op o.pend (g + BitVec.ofNat 64 (n * k)) (cm != 1) x.1 x.2) s
    pure (s1, rowb)
/-- The next access of an operation. -/
def engNext (s : State) (c : Nat) (o : EngineOp) (budget : Nat) : Except EngStop (State × Nat) :=
  if o.kind = 2 then engElem s c o budget else if o.kind = 4 ∨ o.kind = 5 then engRow s c o else engLinear s c o budget
/-- Bytes beyond DONE that an operation has worked on before it stops (R191, R210): which of them, a free choice says for each. A combining
add is performed once, so a SCAT that combines works on none (R202). -/
def State.writeAhead (s : State) (c : Nat) (o : EngineOp) : State :=
  let unit := if 4 ≤ o.kind then max 1 (o.par 3) else 1
  let n := (o.len - o.done) / unit
  if o.kind = 5 ∧ o.xop.extractLsb' 6 2 ≠ 0#2 then s
  else ((List.range n).foldl (fun (t : State) k =>
    if Config.freeNat (s.freeCtr + k) % 2 = 1 then
      match engNext t c { o with done := o.done + unit * (k + 1) } 1 with
      | .ok (t1, _) => if o.done + unit * (k + 1) < o.len then t1 else t
      | .error _ => t
    else t) s).takeFree n
/-- What an operation meets where it cannot go on (R207). -/
def State.engStop (s : State) (c : Nat) (o : EngineOp) (e : EngStop) : State :=
  match e with
  | .fault k va =>
    let s1 := (s.dropPerm (s.whoOp c o) va k).writeAhead c o
    if k = kNONCANON then s1.failOp c o 3 k va else s1.moorOp c o k va
  | .link code va => s.failOp c o 4 code va
  | .member x kind rva va => (s.inboundFault x kind rva).failOp c o 4 kind va
  | .badIndex => s.failOp c o 5 0 0
  | .busy => s
  | .need s1 f =>
    let w := s.whoOp c o
    let q := s1.requestSectors 0 w (some (c, o.id)) o.pend [f]
    q.1.setOp c { o with pend := q.2 }
/-- DONE advances by n, and the bytes count onto the operation's barrier (R180, R192). -/
def State.engDone (s : State) (c : Nat) (o : EngineOp) (n : Nat) : State :=
  let s1 := s.setOp c { o with done := o.done + n, pend := Pend.empty }
  match o.tb, o.blk with
  | some t, some b => s1.tbBytes b t n
  | _, _ => s1
/-- An operation moves up to `budget` bytes, at most `fuel` accesses; the stop that ends it, if any. -/
def State.engMove (s : State) (c id fuel budget : Nat) : State × Option EngStop :=
  match fuel with
  | 0 => (s, none)
  | fuel + 1 =>
    match s.op? c id with
    | none => (s, none)
    | some o =>
      if o.state ≠ 1 ∨ o.slot.isNone ∨ o.len ≤ o.done ∨ budget = 0 then (s, none)
      else match engNext s c o budget with
        | .error e => (s, some e)
        | .ok (s1, n) => (s1.engDone c o n).engMove c id fuel (budget - n)
/-- An operation whose bytes are all moved is complete, and it is reported in its turn (R190, R195). -/
def State.completeOp (s : State) (c : Nat) (o : EngineOp) : State :=
  (s.setOp c { o with complete := true }).report c (opKey c o) o.gather

/-! ## Failures that surface, slots -/

/-- The 128 bytes of a restart record (R206). -/
def EngineOp.bytes (o : EngineOp) : List Byte :=
  leBytes o.dst.toNat 8 ++ leBytes o.src.toNat 8 ++ leBytes o.len 4 ++ leBytes o.done 4 ++ leBytes o.kind 1 ++ leBytes o.state 1 ++
    leBytes (o.tb.getD 255) 1 ++ leBytes o.owner 1 ++ leBytes o.xop.toNat 2 ++ leBytes o.seq 2 ++ leBytes o.faddr.toNat 8 ++
    leBytes o.freason 1 ++ leBytes o.fcode 1 ++ leBytes 0 2 ++ (List.range 5).flatMap (fun k => leBytes (o.coord.getD k 0).toNat 4) ++
    (List.range 16).flatMap (fun k => leBytes (o.param.getD k 0).toNat 4)
/-- The ENGINE trap of a failed operation (R208, R295). -/
def engineTrap (o : EngineOp) (cur : Mask) : Trap :=
  { cause := 11, w0 := BitVec.ofNat 32 (o.freason % 16 + (if o.gather then 16 else 0) + 32 * (o.slot.getD 0) + 2 ^ 15 * o.kind +
      2 ^ 18 * (o.owner % 32) + 2 ^ 23 * (o.fcode % 256)),
    w1 := BitVec.ofNat 32 o.done, w2 := o.faddr.truncate 32, lanes := cur, unfin := 0 }
/-- A failure surfaces at a group's word (R208): its slot is free, the trap's record stands in the header. An operation that has surfaced and
is not yet reported counts as complete; no rule says what CPYQ gives for it and for a complete one that awaits its turn: STATE running, and
0xFFFF_FFFF for the slot of one that has surfaced (DESIGN CHOICE, log 68). -/
def State.surface (s : State) (key : Nat) (c : Nat) (o : EngineOp) (cur : Mask) : Res State :=
  let s1 := if o.reported then s.delOp c o.id else s.setOp c { o with state := 1, complete := true, slot := none, freason := 0 }
  let rec128 := (List.range 128).foldl (fun m k => aset 0 k (o.bytes.getD k 0) m) []
  .error (.part (s1.modGroup key (fun g => { g with failrec := rec128 })) (engineTrap o cur))
/-- A failed operation of a group and class that has not surfaced, the oldest first. -/
def State.standing (s : State) (c key : Nat) (gather : Bool) : Option EngineOp := (s.opsOf c key gather).find? (fun o => o.state == 3)
/-- The group that waits longest for a slot of a class (R189), one that was granted a slot and has not yet issued included. -/
def State.firstWaiter (s : State) (c : Nat) (gather : Bool) : Option Nat :=
  ((s.core c).slotq.find? (fun q => q.1 == gather && (s.group? q.2).any (fun g =>
    g.wait == .engineSlot gather || (g.wait == .none && g.state == .running && !g.inEntry)))).map Prod.snd
/-- Whether the group may take a slot now: one is free, no resumed operation waits for it, and no other word waited first. -/
def State.slotFor (s : State) (c key : Nat) (gather : Bool) : Option Nat :=
  if (s.core c).ops.any (fun o => o.gather == gather && o.slot.isNone && !(o.complete && o.state != 3)) then none
  else match s.firstWaiter c gather with
    | some k => if k = key then s.freeSlot c gather else none
    | none => s.freeSlot c gather
/-- An operation issued by the group of `cur` (R189): the restart record, a slot and a count, or the wait for a slot; a group that
holds an unsurfaced failure of the class traps in place of waiting (R208). The issue numbers of a class count from 0 (DESIGN CHOICE, log 68:
R206 says only that SEQ is the issue number). -/
def State.issueOp (s : State) (g : Group) (o : EngineOp) : Res State :=
  let c := g.core
  let key := s.cur.key
  match s.slotFor c key o.gather with
  | some n =>
    let k := s.core c
    let o1 := { o with id := k.opSeq, blk := g.blk, owner := g.gid, seq := (if o.gather then g.igath else g.icopy) % 65536, slot := some n }
    let s1 := s.modCore c (fun k => { k with ops := k.ops ++ [o1], opSeq := k.opSeq + 1, slotq := k.slotq.erase (o.gather, key) })
    let s2 := s1.modGroup key (fun g => (if o.gather then { g with igath := g.igath + 1 } else { g with icopy := g.icopy + 1 } : Group).setCount
      o.gather (g.count o.gather + 1))
    .ok (if o1.len = 0 then s2.completeOp c o1 else s2)
  | none =>
    match s.standing c key o.gather with
    | some f => s.surface key c f (g.mask false)
    | none =>
      let s1 := s.modCore c (fun k => { k with slotq := if k.slotq.contains (o.gather, key) then k.slotq else k.slotq ++ [(o.gather, key)] })
      .error (.wait s1 (.engineSlot o.gather))

/-! ## The words of the class -/

/-- A blank operation of a word. -/
def opOf (kind : Nat) (r : RWord) : EngineOp :=
  { id := 0, blk := none, gather := 4 ≤ kind, dst := 0, src := 0, len := 0, done := 0, kind, state := 1, tb := none, owner := 0,
    xop := r.xop, seq := 0, faddr := 0, freason := 0, fcode := 0, coord := [], param := [], slot := none, patPoison := false,
    complete := false, reported := false, pend := Pend.empty, failAge := 0 }
/-- An ENGINE trap at issue (R194 item 2, R295): the reason, and the class, KIND and OWNER of the word; no operation exists whose slot,
DONE, FCODE and FADDR it could give (DEDUCED, log 51). -/
def engIssueTrap (reason kind : Nat) (g : Group) : Halt :=
  .trap (trap0 11 (BitVec.ofNat 32 (reason + (if 4 ≤ kind then 16 else 0) + 2 ^ 15 * kind + 2 ^ 18 * (g.gid % 32))) (g.mask false))
/-- A check of R194: the halt where the condition holds. -/
def refuse (b : Bool) (h : Halt) : Res Unit := if b then .error h else .ok ()
/-- The MEMORY trap at issue (R194 items 4 and 5): the word has no effect, so every ACTIVE lane is unfinished. -/
def engMemTrap (kind : Nat) (wr : Bool) (addr : DWord) (m : Mask) : Halt := .trap (memoryTrap kind (lowLane m) wr false addr m m)
/-- The BARRIER trap (R181, R295). The field <11:4> holds the barrier number modulo 256 (DESIGN CHOICE, log 61). -/
def barTrap (reason number : Nat) (cur : Mask) : Halt := .trap (trap0 19 (BitVec.ofNat 32 (reason + 16 * (number % 256))) cur)
/-- The barrier that the word names, checked (R194 item 3). -/
def engTb (s : State) (g : Group) (r : RWord) : Res (Option Nat) :=
  if xbit r 8 then
    let n := (g.getS r.c.toNat).toNat
    if n < ((s.blockOf g).map Block.ntbar).getD 0 then .ok (some n) else .error (barTrap 1 n (g.mask false))
  else .ok none
/-- R194 item 4 on a generic range: its first and last byte are canonical. -/
def engGen (a : DWord) (n : Nat) (wr : Bool) (m : Mask) : Res Unit :=
  if n = 0 then .ok ()
  else do
    refuse (!canonical a) (engMemTrap kNONCANON wr a m)
    refuse (!canonical (a + BitVec.ofNat 64 (n - 1))) (engMemTrap kNONCANON wr (a + BitVec.ofNat 64 (n - 1)) m)
/-- R194 item 5 on a scratchpad range: it lies in the local area. -/
def engScr (s : State) (g : Group) (o n : Nat) (wr : Bool) (m : Mask) : Res Unit :=
  refuse (n != 0 && ((s.blockOf g).map Block.localSize).getD 0 < o + n) (engMemTrap kSCRBOUND wr (BitVec.ofNat 64 o) m)
/-- The operation of CPY and CPYF (R194, R195), after its checks. Where both ranges are bad, no rule says which is reported: the destination is
checked before the source, and a range outside the local area reports its first offset (DESIGN CHOICE, log 68). -/
def linearOp (kind : Nat) (r : RWord) (s : State) (g : Group) (m : Mask) : Res EngineOp := do
  let d := r.d.toNat
  let a := r.a.toNat
  let o := opOf kind r
  let regs := (if o.dScr then [d] else [d, d + 1]) ++ (if kind = 3 then [] else if o.sScr then [a] else [a, a + 1]) ++
    [r.b.toNat] ++ (if xbit r 8 then [r.c.toNat] else [])
  g.consumeU 7 m regs
  let dst := if o.dScr then (g.getS d).zeroExtend 64 else g.getS64 d
  let src := if kind = 1 ∧ o.sScr then (g.getS a).zeroExtend 64 else g.getS64 a
  let len := (g.getS r.b.toNat).toNat
  let tb ← engTb s g r
  if !o.dScr then engGen dst len true m
  if kind = 1 ∧ !o.sScr then engGen src len false m
  if o.dScr then engScr s g dst.toNat len true m
  if kind = 1 ∧ o.sScr then engScr s g src.toNat len false m
  pure { o with dst, src, len, tb, patPoison := kind == 3 && g.poisonSRun a 2 }
/-- A word that issues an operation: its checks, and then its slot (R189, R194). -/
def engWord (i : Instr) (s : State) (f : State → Group → Mask → Res EngineOp) : Out State :=
  stateWord i s (fun g m => do
    let o ← f s g m
    s.issueOp g o)
/-- CPY. -/
def execCpy (r : RWord) (s : State) : Out State := engWord (.cpy r) s (linearOp 1 r)
/-- CPYF. -/
def execCpyf (r : RWord) (s : State) : Out State := engWord (.cpyf r) s (linearOp 3 r)
/-- The byte count of a tile (R192). -/
def tileBytes (par : Nat → Nat) : Nat := cfgEs (par 2) * ((List.range 5).map (boxOf par)).prod
/-- Whether R197 refuses a descriptor with reason 1. -/
def tileBad (par : Nat → Nat) : Bool :=
  let cfg := par 2
  let nd := cfgNd cfg
  let es := cfgEs cfg
  nd == 0 || 5 < nd || par 0 % 16 != 0 || (List.range (min nd 5)).any (fun k => par (4 + k) == 0) ||
    (List.range 5).any (fun k => nd ≤ k && boxOf par k != 1) || cfg / 512 != 0 || par 14 / 256 != 0 || par 15 != 0 ||
    (cfgTr cfg && (es == 1 || es == 8 || nd == 1)) || (if cfgTr cfg then boxOf par 1 else boxOf par 0) * es % 16 != 0 ||
    (cfgSwz cfg != 0 && tileBytes par % (64 * 2 ^ cfgSwz cfg) != 0)
/-- The operation of CPYT (R194, R196 to R198), after its checks. -/
def tileOp (r : RWord) (s : State) (g : Group) (m : Mask) : Res EngineOp := do
  let a := r.a.toNat
  let b := r.b.toNat
  let o := opOf 2 r
  let param := (List.range 16).map (fun k => g.getS (a + k))
  let par (k : Nat) : Nat := (param.getD k 0).toNat
  let nd := min (cfgNd (par 2)) 5
  let regs := [r.d.toNat, a, a + 1, a + 2, a + 3] ++ (List.range nd).map (fun k => a + 4 + k) ++
    (List.range (nd - 1)).map (fun k => a + 9 + k) ++ [a + 13, a + 14, a + 15] ++ (List.range nd).map (fun k => b + k) ++
    (if xbit r 8 then [r.c.toNat] else [])
  g.consumeU 7 m regs
  refuse (tileBad par) (engIssueTrap 1 2 g)
  let d := (g.getS r.d.toNat).toNat
  refuse (d % 16 != 0 || (cfgSwz (par 2) != 0 && d % (64 * 2 ^ cfgSwz (par 2)) != 0)) (engIssueTrap 2 2 g)
  let tb ← engTb s g r
  engGen (BitVec.ofNat 64 (par 0 + 2 ^ 32 * par 1)) 1 o.dirOut m
  engScr s g d (tileBytes par) (!o.dirOut) m
  pure { o with dst := BitVec.ofNat 64 d, len := tileBytes par, tb, param, coord := (List.range 5).map (fun k => g.getS (b + k)) }
/-- CPYT (R198). -/
def execCpyt (r : RWord) (s : State) : Out State := engWord (.cpyt r) s (tileOp r)
/-- Whether R201 refuses a descriptor with reason 1. -/
def gatherBad (par : Nat → Nat) : Bool :=
  par 0 % 16 != 0 || par 2 % 16 != 0 || par 3 < 16 || 65536 < par 3 || par 3 % 16 != 0 || par 4 % 4 != 0 || par 5 < 1 ||
    65536 < par 5 || par 6 % 16 != 0 || par 7 != 0
/-- The operation of GATH and SCAT (R194, R201, R202), after its checks. BASE of SCAT is checked at issue as BASE of GATH is, though R194 item 4
names it for CPYT and GATH alone (DESIGN CHOICE, log 68). -/
def gatherOp (kind : Nat) (r : RWord) (s : State) (g : Group) (m : Mask) : Res EngineOp := do
  let a := r.a.toNat
  let o := opOf kind r
  let param := (List.range 8).map (fun k => g.getS (a + k))
  let par (k : Nat) : Nat := (param.getD k 0).toNat
  g.consumeU 7 m ((List.range 8).map (a + ·) ++ (if xbit r 8 then [r.c.toNat] else []))
  refuse (gatherBad par) (engIssueTrap 1 kind g)
  let tb ← engTb s g r
  engGen (BitVec.ofNat 64 (par 0 + 2 ^ 32 * par 1)) 1 (kind == 5) m
  engScr s g (par 4) (4 * par 5) false m
  engScr s g (par 6) (par 5 * par 3) (kind == 4) m
  pure { o with len := par 5 * par 3 % 2 ^ 32, tb, param }
/-- GATH. -/
def execGath (r : RWord) (s : State) : Out State := engWord (.gath r) s (gatherOp 4 r)
/-- SCAT. -/
def execScat (r : RWord) (s : State) : Out State := engWord (.scat r) s (gatherOp 5 r)
/-- WAITC (R203). -/
def execWaitc (r : RWord) (s : State) : Out State :=
  stateWord (.waitc r) s (fun g m => do
    let gather := xbit r 8
    if xbit r 7 then g.consumeU 7 m [r.a.toNat]
    let t := if xbit r 7 then (g.getS r.a.toNat).toNat else r.b.toNat
    if t < g.count gather then .error (.wait s (.waitc gather t))
    match (s.opsOf g.core s.cur.key gather).find? (fun o => o.state == 3 && o.reported) with
    | some o => s.surface s.cur.key g.core o (g.mask false)
    | none => pure s)
/-- The status word of CPYQ (R204). -/
def cpyqWord (o : Option EngineOp) (count : Nat) : Nat :=
  match o with
  | none => count
  | some o => 2 ^ 31 + o.state * 2 ^ 28 + o.kind * 2 ^ 25 + (match o.tb with | some n => 2 ^ 24 + n % 64 * 2 ^ 18 | none => 0) + count
/-- CPYQ (R204). -/
def execCpyq (r : RWord) (s : State) : Out State :=
  stateWord (.cpyq r) s (fun g m => do
    let gather := xbit r 8
    g.consumeU 7 m [r.a.toNat]
    let pos := (g.getS r.a.toNat).toNat
    let o := ((s.opsOf g.core s.cur.key gather).drop pos).head?
    let d := r.d.toNat
    let put (h : Group) (k x : Nat) : Group := h.setS (d + k) (BitVec.ofNat 32 x) false
    pure (s.setGroup s.cur.key (put (put (put (put g 0 (cpyqWord o (g.count gather))) 1 ((o.map EngineOp.done).getD 0))
      2 ((o.map EngineOp.len).getD 0)) 3 (match o with | none => 0 | some x => x.slot.getD 0xFFFFFFFF))))
/-- Where an operation writes byte j of its canonical order: a scratchpad offset, a generic address, or nowhere. -/
def engDest (s : State) (o : EngineOp) (j : Nat) : Option (Nat ⊕ DWord) :=
  if o.kind = 1 ∨ o.kind = 3 then
    let d := o.dst + BitVec.ofNat 64 j
    some (if o.dScr then .inl d.toNat else .inr d)
  else if o.kind = 2 then
    let es := cfgEs (o.par 2)
    let t := tilePos o (j / es)
    if !o.dirOut then some (.inl (t.off + j % es))
    else if t.inb then some (.inr (t.addr + BitVec.ofNat 64 (j % es))) else none
  else
    let rowb := o.par 3
    if o.kind = 4 then some (.inl (o.par 6 + j))
    else
      let idx := leNat (s.scrRead o.blk (.loc (o.par 4 + 4 * (j / rowb))) 4).1
      if idx = 0xFFFFFFFF then none else some (.inr (BitVec.ofNat 64 (o.base + idx * o.par 2 + j % rowb)))
/-- The bytes that a cancelled operation would have written take free values (R205; DESIGN CHOICE, log 5): in the scratchpad, in device
memory, and in the host lines that the last-level cache holds. A byte that no check lets it write stays as it is, and what the memory
beyond a link holds is the link's to say; L1's copies of them go. -/
def State.freeBytes (s : State) (c : Nat) (o : EngineOp) : State :=
  let w := s.whoOp c o
  ((List.range (o.len - o.done)).foldl (fun s k =>
    let x := Config.freeByte (s.freeCtr + k)
    match engDest s o (o.done + k) with
    | none => s
    | some (.inl off) => s.scrWrite o.blk (.loc off) [x] false
    | some (.inr va) => match s.checkByte w .write va true with
      | .ok (_, .dev _) => (s.engWrite w none va [x] false).toOption.getD s
      | .ok (_, .host pa _) =>
        let s1 := s.dropBytes w.core (fun q => q == lkey w.asid (va57 va))
        if (aget? pa s1.llcHost).isSome then { s1 with llcHost := aput pa (x, true) s1.llcHost } else s1
      | .ok (_, .peer _ _ _) => s.dropBytes w.core (fun q => q == lkey w.asid (va57 va))
      | .error _ => s) s).takeFree (o.len - o.done)
/-- An operation is cancelled (R205), one that has failed and not surfaced included: the rest of its bytes count onto its
barrier. -/
def State.cancelOp (s : State) (c : Nat) (o : EngineOp) : State :=
  let s1 := ((s.freeBytes c o).withdrawOp c o.id).delOp c o.id
  match o.tb, o.blk with
  | some t, some b => s1.tbBytes b t (o.len - o.done)
  | _, _ => s1
/-- CPYX (R205). -/
def execCpyx (r : RWord) (s : State) : Out State :=
  stateWord (.cpyx r) s (fun g _ => do
    let key := s.cur.key
    let sel := xf r 7 2
    let ops := (if sel % 2 = 1 then s.opsOf g.core key false else []) ++ (if 2 ≤ sel then s.opsOf g.core key true else [])
    let s1 := ops.foldl (fun s o => s.cancelOp g.core o) s
    pure (s1.modGroup key (fun h =>
      let h1 := if sel % 2 = 1 then h.setCount false 0 else h
      let h2 := if 2 ≤ sel then h1.setCount true 0 else h1
      h2.setS r.d.toNat (BitVec.ofNat 32 ops.length) false)))

/-! ## Events of the engines -/

/-- The moving operation of an event, where it may move. -/
def State.movable (s : State) (c id : Nat) : Option EngineOp :=
  (s.op? c id).filter (fun o => o.state == 1 && o.slot.isSome && !o.complete && o.pend.waiting.isEmpty &&
    !((o.blk.bind (fun n => aget? n s.blocks)).map Block.stopped).getD false)
/-- ENGINE_SLOT_GRANT (R189, R210): a free slot goes to the oldest resumed operation, and otherwise to the word that has waited
longest, whose group may issue again. -/
def execEngineSlotGrant (core : Nat) (gather : Bool) (s : State) : Out State :=
  match s.freeSlot core gather with
  | none => .fault .notNow
  | some n =>
    match (s.core core).ops.find? (fun o => o.gather == gather && o.slot.isNone && !(o.complete && o.state != 3)) with
    | some o => .next (s.setOp core { o with slot := some n, state := if o.state = 4 then 1 else o.state })
    | none =>
      match s.firstWaiter core gather with
      | some k => .next (s.modGroup k (fun g => if g.wait = .engineSlot gather then { g with wait := .none } else g))
      | none => .fault .notNow
/-- ENGINE_BYTES_DONE (R180, R191): the next bytes of an operation, at most n, without a fault. -/
def execEngineBytesDone (core op n : Nat) (s : State) : Out State :=
  match s.movable core op with
  | none => .fault .notNow
  | some o =>
    if o.len ≤ o.done ∨ n = 0 then .fault .notNow
    else match engNext s core o n with
      | .error (.need s1 f) => .next (s.engStop core o (.need s1 f))
      | .error _ => .fault .notNow
      | .ok (s1, m) => .next ((s1.engDone core o m).engMove core op n (n - m)).1
/-- ENGINE_OP_COMPLETE (R190): an operation has moved every byte. -/
def execEngineOpComplete (core op : Nat) (s : State) : Out State :=
  match s.movable core op with
  | none => .fault .notNow
  | some o => if o.len ≤ o.done then .next (s.completeOp core o) else .fault .notNow
/-- ENGINE_ACCESS_FAULT (R207): the next access of an operation faults. -/
def execEngineAccessFault (core op : Nat) (s : State) : Out State :=
  match s.movable core op with
  | none => .fault .notNow
  | some o =>
    if o.len ≤ o.done then .fault .notNow
    else match engNext s core o 1 with
      | .error (.fault k va) => .next (s.engStop core o (.fault k va))
      | .error .badIndex => .next (s.engStop core o .badIndex)
      | _ => .fault .notNow
/-- ENGINE_OP_FAIL (R207): a link has failed an access of an operation that runs. -/
def execEngineOpFail (core op link : Nat) (s : State) : Out State :=
  match (s.op? core op).filter (fun o => o.state == 1 && !o.complete) with
  | none => .fault .notNow
  | some o =>
    let addr := match engNext s core o 1 with
      | .error (.link _ va) => va
      | .error (.member _ _ _ va) => va
      | .error (.need _ f) => f.va
      | _ => o.faddr
    .next (s.failOp core o 4 link addr)

end Sys2Proof.Machine
end

