-- ==== Sys2Proof/Machine/Barriers.lean ====
section
/-! DEFINITION. Block barriers and transaction barriers (R176 to R181). -/
namespace Sys2Proof.Machine

/-- BAR (R176): the arrival commits here, and the group departs with the others. A group arrives once, whatever its masks. The supervisor
group has no block: no rule says what it waits for or what NGROUP is; it goes on at once, and every count traps (DESIGN CHOICE, log 68). -/
def execBar (r : RWord) (s : State) : Out State :=
  issue (.bar r) s (fun g _ => do
    let cnt := xbit r 5
    let id := xf r 1 4
    let b := s.blockOf g
    let bn := g.blk.getD 0
    let e := if cnt then (g.getS r.a.toNat).toNat else (s.liveGroups bn).length
    refuse (cnt && (e == 0 || (b.map Block.ngroup).getD 0 < e)) (barTrap 7 id g.mask0)
    let x := (b.bind (fun k => aget? id k.bars)).getD { arrivals := 0, e, cnt }
    refuse (x.arrivals != 0 && (x.cnt != cnt || (cnt && x.e != e))) (barTrap 7 id g.mask0)
    match g.blk with
    | none => pure s.advance
    | some n =>
      s.performed g.core
      let s1 := s.modBlock n (fun k => { k with bars := aput id { arrivals := x.arrivals + 1, e, cnt } k.bars })
      pure ((s1.modGroup s.cur.key (fun g => { g with wait := .bar id })).settleBar n id))

/-- The barrier number of a transaction-barrier word (R178). -/
def tbNum (r : RWord) (g : Group) : Nat := if xbit r 7 then (g.getS r.c.toNat).toNat else xf r 1 6
/-- The checks that TBARR, TBEXP, TBWAIT and TBTEST make in order (R179): `tx` is the TX that the word would leave. -/
def tbChecks (s : State) (g : Group) (slot1 : Bool) (n : Nat) (arrive : Bool) (tx : Option Int) : Res Tb :=
  let cur := g.mask slot1
  let b := s.blockOf g
  if (b.map Block.ntbar).getD 0 ≤ n then .error (barTrap 1 n cur)
  else
    let t := (b.map (fun k => k.tb n)).getD (tbOf 0)
    if !t.v then .error (barTrap 2 n cur)
    else if t.er then .error (barTrap 3 n cur)
    else if arrive && t.pend == 0 then .error (barTrap 4 n cur)
    else if (tx.map (fun x => !txOk (t.tx + x))).getD false then .error (barTrap 6 n cur)
    else .ok t
/-- A transaction-barrier word acts on barrier n of the group's block. -/
def tbWord (i : Instr) (r : RWord) (s : State) (f : Group → Nat → Nat → Res State) : Out State :=
  stateWord i s (fun g _ => f g (g.blk.getD 0) (tbNum r g))
/-- TBINIT (R179). -/
def execTbinit (r : RWord) (s : State) : Out State :=
  tbWord (.tbinit r) r s (fun g b n => do
    let cur := g.mask s.cur.slot1
    let k := s.blockOf g
    refuse ((k.map Block.ntbar).getD 0 ≤ n) (barTrap 1 n cur)
    let c := (g.getS r.a.toNat).toNat
    refuse (c == 0 || 4095 < c) (barTrap 6 n cur)
    refuse ((k.map (fun k => (k.tb n).v)).getD false) (barTrap 5 n cur)
    pure (s.setTb b n { v := true, ph := false, er := false, exp := c, pend := c, tx := 0 }))
/-- TBARR (R179). -/
def execTbarr (r : RWord) (s : State) : Out State :=
  tbWord (.tbarr r) r s (fun g b n => do
    s.performed g.core
    let x : Int := if xbit r 8 then (g.getS r.b.toNat).toNat else 0
    let t ← tbChecks s g s.cur.slot1 n true (some x)
    pure (s.putTb b n ({ t with tx := t.tx + x, pend := t.pend - 1 }).settle))
/-- TBEXP (R179). -/
def execTbexp (r : RWord) (s : State) : Out State :=
  tbWord (.tbexp r) r s (fun g b n => do
    let x : Int := (g.getS r.b.toNat).toNat
    let t ← tbChecks s g s.cur.slot1 n false (some x)
    pure (s.setTb b n { t with tx := t.tx + x }))
/-- A failed operation of the block that counts onto barrier n and has not surfaced (R208). -/
def State.tbFailure (s : State) (g : Group) (n : Nat) : Option EngineOp :=
  if g.blk.isNone then none
  else (s.core g.core).ops.find? (fun o => o.blk == g.blk && o.state == 3 && o.tb == some n)
/-- TBWAIT (R179, R208): a standing failure on the barrier surfaces here. A group that the barrier has woken goes on as its checks met
the barrier then. -/
def execTbwait (r : RWord) (s : State) : Out State :=
  tbWord (.tbwait r) r s (fun g _ n => do
    let parity := (g.getS r.b.toNat).getLsbD 0
    match s.tbFailure g n with
    | some o => s.surface s.cur.key g.core o (g.mask s.cur.slot1)
    | none => match g.wait with
      | .tbwoken reason => if reason = 0 then pure s else throw (barTrap reason n (g.mask s.cur.slot1))
      | _ =>
        let t := ((s.blockOf g).map (fun k => k.tb n)).getD (tbOf 0)
        if !t.ready parity then .error (.wait s (.tbwait n parity))
        let _ ← tbChecks s g s.cur.slot1 n false none
        pure s)
/-- TBTEST (R179). -/
def execTbtest (r : RWord) (s : State) : Out State :=
  issue (.tbtest r) s (fun g m =>
    if m = 0 then .ok s.advance
    else do
      let n := tbNum r g
      let t ← tbChecks s g s.cur.slot1 n false none
      let done := t.ph != (g.getS r.b.toNat).getLsbD 0
      pure (s.setGroup s.cur.key (g.setP r.d.toNat m (if done then BitVec.allOnes 32 else 0))).advance)
/-- TBINV (R179). -/
def execTbinv (r : RWord) (s : State) : Out State :=
  tbWord (.tbinv r) r s (fun g b n => do
    refuse (((s.blockOf g).map Block.ntbar).getD 0 ≤ n) (barTrap 1 n (g.mask s.cur.slot1))
    let t := ((s.blockOf g).map (fun k => k.tb n)).getD (tbOf 0)
    pure (if t.v then s.putTb b n { t with v := false } else s))

end Sys2Proof.Machine
end

