-- ==== Sys2Proof/Machine/Control.lean ====
section
/-! DEFINITION. Control and divergence words (R72 to R91). -/
namespace Sys2Proof.Machine

/-! ## The lane-mask stack -/

/-- A DIVSTACK trap (R81, R295). -/
def divTrap (reason : Nat) (lanes : Mask) : Halt := .trap (trap0 18 (BitVec.ofNat 32 reason) lanes)
/-- The TETHER trap (R284). -/
def tetherTrap (reason : Nat) (lanes : Mask) : Halt := .trap (trap0 20 (BitVec.ofNat 32 reason) lanes)
/-- A push (R74): the ninth entry on chip sends the oldest to memory. The supervisor group has no stack area; it keeps its
entries on chip (DEDUCED, log 20). -/
def State.push (s : State) (g : Group) (e : StackEntry) (cur : Mask) : Res (State × Group) :=
  if 64 ≤ g.depth then .error (divTrap 1 cur)
  else if g.isSup || g.stack.length < 8 then .ok (s, { g with stack := e :: g.stack, depth := g.depth + 1 })
  else match g.stack.getLast? with
    | none => .ok (s, { g with stack := e :: g.stack, depth := g.depth + 1 })
    | some old => do
      let s' ← s.areaWrite g g.spill old cur
      pure (s', { g with stack := e :: g.stack.dropLast, depth := g.depth + 1, spill := g.spill + 1 })
/-- A pop (R74): where 8 or more entries stay, the entry at position depth − 8 comes back onto the chip. -/
def State.pop (s : State) (g : Group) (cur : Mask) : Res Group :=
  if g.spill = 0 then .ok { g with stack := g.stack.tail, depth := g.depth - 1 }
  else do
    let e ← s.areaRead g (g.spill - 1) cur
    pure { g with stack := g.stack.tail ++ [e], depth := g.depth - 1, spill := g.spill - 1 }
/-- Whether the i-th entry from the top lies below SDEPTH, which an entry's word may not reach (R280). -/
def Group.belowEntry (g : Group) (i : Nat) : Bool := g.inEntry && g.depth - 1 - i < g.sdepth
/-- The top entry with its first field replaced. -/
def Group.setTop (g : Group) (e : StackEntry) : Group := { g with stack := e :: g.stack.tail }
/-- Resolve (R81) for slot 0, with the state as memory: the group that goes on. `cur` is the mask for traps. -/
def State.resolveLoop (s : State) (fuel : Nat) (g : Group) (cur : Mask) : Res Group :=
  match fuel with
  | 0 => .error (divTrap 4 g.live)
  | fuel + 1 =>
    if g.depth = 0 then .error (divTrap 4 g.live)
    else match g.stack with
      | [] => .error (divTrap 4 g.live)
      | t :: _ =>
        if t.split && g.inEntry then .error (tetherTrap 4 cur)
        else if g.belowEntry 0 then .error (tetherTrap 3 cur)
        else if t.split then .error (.wait s .splitTop)
        else if t.pm ≠ 0 ∧ (t.kind = 1 ∨ t.kind = 2) then
          .ok { (g.setTop { t with pm := 0 }) with mask0 := t.pm, pc0 := t.pc }
        else do
          let g1 ← s.pop g cur
          let m := t.rm &&& g.live
          if m ≠ 0 then pure { g1 with mask0 := m, pc0 := t.epc + 8 } else s.resolveLoop fuel { g1 with mask0 := 0 } cur
/-- Resolve (R81). -/
def State.resolve (s : State) (g : Group) (slot1 : Bool) (cur : Mask) : Res (State × Group) :=
  if slot1 then s.stopSlot1 g else (s.resolveLoop 65 g cur).map (fun g' => (s, g'))

/-- The word commits and the slot goes on at pc. -/
def Group.goTo (g : Group) (slot1 : Bool) (pc : DWord) : Group := (g.advance slot1).setPc slot1 pc
/-- A control word: it acts on its group, and on the stack area, and sets the slot's PC itself. -/
def ctlWord (i : Instr) (s : State) (f : State → Group → Mask → Res (State × Group)) : Out State :=
  issue i s (fun g m => do
    let r ← f s g m
    pure (r.1.setGroup s.cur.key r.2))
/-- The target of a B-form word (R42). -/
def brTarget (r : BWord) (pc : DWord) : DWord := pc + (r.tgt.signExtend 64 <<< 3)
/-- Bits of BOP. -/
def brBits (r : BWord) (lo n : Nat) : Nat := bitsOf r.bop.toNat lo n
/-- The condition C of IF, BREAK and CONT on the current mask (R77). -/
def brCond (r : BWord) (g : Group) : Mask :=
  let p := g.getP (brBits r 18 8)
  g.mask0 &&& (if brBits r 17 1 = 1 then ~~~p else p)

/-! ## Structured words -/

/-- IF (R77). -/
def ifBody (r : BWord) (s : State) (g : Group) : Res (State × Group) := do
  let cur := g.mask0
  let t := brCond r g
  let e := cur &&& ~~~t
  let ppc := brTarget r g.pc0
  let split := t ≠ 0 ∧ e ≠ 0 ∧ ¬ g.run1
  let x : StackEntry :=
    { rm := cur, pm := if split ∨ t = 0 then 0 else e, pc := ppc, epc := g.pc0 + BitVec.ofNat 64 (8 * brBits r 0 17),
      kf := if split then 0x101 else 1 }
  let (s1, g1) ← s.push g x cur
  if split then
    pure (s1, { (g1.goTo false (g.pc0 + 8)) with
      mask0 := t, pc1 := ppc, mask1 := e, held := 0, run1 := true, retry1 := Retry.none, pend1 := none, settle1 := false })
  else if t ≠ 0 then pure (s1, { (g1.goTo false (g.pc0 + 8)) with mask0 := t })
  else pure (s1, { (g1.goTo false ppc) with mask0 := e })
/-- ELSE and ENDIF (R78): X is the address of the ENDIF. -/
def endBody (x : DWord) (s : State) (g : Group) : Res (State × Group) :=
  let cur := g.mask0
  if g.depth = 0 then .error (divTrap 3 cur)
  else match g.stack with
    | [] => .error (divTrap 3 cur)
    | t :: _ =>
      if g.inEntry ∧ t.split ∧ t.kind = 1 ∧ t.epc = x then .error (tetherTrap 4 cur)
      else if g.belowEntry 0 then .error (tetherTrap 3 cur)
      else if t.kind ≠ 1 ∨ t.epc ≠ x then .error (divTrap 3 cur)
      else if t.split then .error (.wait s .splitTop)
      else if t.pm ≠ 0 then .ok (s, { ((g.setTop { t with pm := 0 }).goTo false t.pc) with mask0 := t.pm })
      else do
        let g1 ← s.pop g cur
        let m := t.rm &&& g.live
        if m = 0 then do
          let q ← s.resolve { g1 with mask0 := 0 } false cur
          pure (q.1, q.2.goTo false q.2.pc0)
        else pure (s, { (g1.goTo false (x + 8)) with mask0 := m })
/-- LOOP (R79). -/
def loopBody (r : BWord) (s : State) (g : Group) : Res (State × Group) := do
  let x : StackEntry := { rm := g.mask0, pm := 0, pc := g.pc0 + 8, epc := brTarget r g.pc0, kf := 2 }
  let (s1, g1) ← s.push g x g.mask0
  pure (s1, g1.goTo false (g.pc0 + 8))
/-- ENDLOOP (R79). -/
def endloopBody (r : BWord) (s : State) (g : Group) : Res (State × Group) :=
  let cur := g.mask0
  if g.depth = 0 then .error (divTrap 3 cur)
  else if g.belowEntry 0 then .error (tetherTrap 3 cur)
  else match g.stack with
    | [] => .error (divTrap 3 cur)
    | t :: _ =>
      if t.kind ≠ 2 ∨ t.epc ≠ g.pc0 ∨ t.pc ≠ brTarget r g.pc0 then .error (divTrap 3 cur)
      else .ok (s, { ((g.setTop { t with pm := 0 }).goTo false t.pc) with mask0 := cur ||| t.pm })
/-- The i-th entry from the top, on chip or in the stack area. -/
def State.entryAt (s : State) (g : Group) (i : Nat) (cur : Mask) : Res StackEntry :=
  match g.stack[i]? with
  | some e => .ok e
  | none => s.areaRead g (g.depth - 1 - i) cur
/-- The i-th entry from the top becomes e, in place. -/
def State.setEntryAt (s : State) (g : Group) (i : Nat) (e : StackEntry) (cur : Mask) : Res (State × Group) :=
  if i < g.stack.length then .ok (s, { g with stack := g.stack.set i e })
  else do
    let s' ← s.areaWrite g (g.depth - 1 - i) e cur
    pure (s', g)
/-- The number of IF entries above the nearest LOOP entry (R80). -/
def State.findLoop (s : State) (fuel : Nat) (g : Group) (i : Nat) (cur : Mask) : Res Nat :=
  match fuel with
  | 0 => .error (divTrap 3 cur)
  | fuel + 1 =>
    if g.depth ≤ i then .error (divTrap 3 cur)
    else if g.belowEntry i then .error (tetherTrap 3 cur)
    else do
      let e ← s.entryAt g i cur
      if e.kind = 2 then pure i else s.findLoop fuel g (i + 1) cur
/-- BREAK and CONT (R80). A Resolve that waits leaves the word without effect until it commits (R91). -/
def leaveBody (cont : Bool) (r : BWord) (s : State) (g : Group) : Res (State × Group) := do
  let cur := g.mask0
  let k ← s.findLoop 65 g 0 cur
  let loop ← s.entryAt g k cur
  if loop.epc ≠ brTarget r g.pc0 then throw (divTrap 3 cur)
  let b := brCond r g
  let (s1, g1) ← (List.range k).foldlM (init := (s, g)) (fun q i => do
    let e ← q.1.entryAt q.2 i cur
    if e.kind ≠ 1 then pure q
    else
      let e' := { e with rm := e.rm &&& ~~~b, pm := e.pm &&& ~~~b }
      if e' = e then pure q else q.1.setEntryAt q.2 i e' cur)
  let (s2, g2) ← if cont && b != 0 then s1.setEntryAt g1 k { loop with pm := loop.pm ||| b } cur else pure (s1, g1)
  let m := cur &&& ~~~b
  if m = 0 then
    match s2.resolve { g2 with mask0 := 0 } false cur with
    | .ok q => pure (q.1, q.2.goTo false q.2.pc0)
    | .error (.wait _ w) => .error (.wait s w)
    | .error e => .error e
  else pure (s2, { (g2.goTo false (g.pc0 + 8)) with mask0 := m })

/-- IF (R77). -/
def execIfThen (r : BWord) (s : State) : Out State := ctlWord (.ifThen r) s (fun s g _ => ifBody r s g)
/-- ELSE (R78). -/
def execElseW (r : BWord) (s : State) : Out State := ctlWord (.elseW r) s (fun s g _ => endBody (brTarget r g.pc0) s g)
/-- ENDIF (R78). -/
def execEndif (s : State) : Out State := ctlWord .endif s (fun s g _ => endBody g.pc0 s g)
/-- LOOP (R79). -/
def execLoopW (r : BWord) (s : State) : Out State := ctlWord (.loopW r) s (fun s g _ => loopBody r s g)
/-- ENDLOOP (R79). -/
def execEndloop (r : BWord) (s : State) : Out State := ctlWord (.endloop r) s (fun s g _ => endloopBody r s g)
/-- BREAK (R80). -/
def execBreakW (r : BWord) (s : State) : Out State := ctlWord (.breakW r) s (fun s g _ => leaveBody false r s g)
/-- CONT (R80). -/
def execCont (r : BWord) (s : State) : Out State := ctlWord (.cont r) s (fun s g _ => leaveBody true r s g)

/-! ## Uniform transfers (R87) -/

/-- Whether a BRA is taken by the slot's lanes (R86). -/
def brTaken (r : BWord) (g : Group) (cur : Mask) : Bool :=
  let cr := brBits r 15 8
  match brBits r 23 3 with
  | 0 => true
  | 1 => g.getS cr != 0
  | 2 => g.getS cr == 0
  | 3 => (cur &&& g.getP cr) != 0
  | 4 => (cur &&& ~~~(g.getP cr)) == 0
  | _ => (cur &&& g.getP cr) == 0
/-- A poisoned register of a transfer is consumed with use 9 (R94, R295, R315). -/
def braPoison (r : BWord) (g : Group) (cur : Mask) : Res Unit :=
  if brBits r 23 3 = 1 ∨ brBits r 23 3 = 2 then g.consumeU 9 cur [brBits r 15 8] else .ok ()
/-- BRA (R87). -/
def execBra (r : BWord) (s : State) : Out State :=
  ctlWord (.bra r) s (fun s g _ => do
    let slot1 := s.cur.slot1
    let cur := g.mask slot1
    braPoison r g cur
    pure (s, g.goTo slot1 (if brTaken r g cur then brTarget r (g.pc slot1) else g.pc slot1 + 8)))
/-- The target pair of BRX, CALLX and RET: poison, then the FETCH trap of a misaligned target. -/
def Group.targetPair (g : Group) (a : Nat) (cur : Mask) : Res DWord := do
  g.consumeU 9 cur [a, a + 1]
  let t := g.getS64 a
  if t.extractLsb' 0 3 ≠ 0 then throw (.trap (trap64 4 1 t cur))
  pure t
/-- A transfer to the pair that A names, with the link written under CALLX. -/
def jumpBody (a : Nat) (link : Option Nat) (s : State) (g : Group) : Res (State × Group) := do
  let t ← g.targetPair a g.mask0
  let g1 := match link with
    | some d => g.setS64 d (g.pc0 + 8) false
    | none => g
  pure (s, g1.goTo false t)
/-- BRX (R87). -/
def execBrx (r : RWord) (s : State) : Out State := ctlWord (.brx r) s (fun s g _ => jumpBody r.a.toNat none s g)
/-- RET (R87). -/
def execRet (r : RWord) (s : State) : Out State := ctlWord (.ret r) s (fun s g _ => jumpBody r.a.toNat none s g)
/-- CALLX (R87). -/
def execCallx (r : RWord) (s : State) : Out State :=
  ctlWord (.callx r) s (fun s g _ => jumpBody r.a.toNat (some r.d.toNat) s g)
/-- CALL (R87). -/
def execCall (r : BWord) (s : State) : Out State :=
  ctlWord (.call r) s (fun s g _ => pure (s, (g.setS64 (brBits r 18 8) (g.pc0 + 8) false).goTo false (brTarget r g.pc0)))

/-! ## Single-word control -/

/-- NOP (R88). -/
def execNop (r : RWord) (s : State) : Out State := groupWord (.nop r) s (fun g _ => .ok g)
/-- EXIT (R88), for the lanes of ACTIVE. -/
def exitBody (key : Nat) (slot1 : Bool) (s : State) (g : Group) (m : Mask) : Res State := do
  let cur := g.mask slot1
  let g1 := { g with live := g.live &&& ~~~m }.setMask slot1 (cur &&& ~~~m)
  if g1.live = 0 then pure (s.endGroup key (if g1.run1 then g1.stopSecondary else g1))
  else if g1.mask slot1 = 0 then do
    let q ← s.resolve g1 slot1 cur
    pure (q.1.setGroup key (if slot1 then q.2 else q.2.goTo false q.2.pc0))
  else pure (s.setGroup key (g1.goTo slot1 (g.pc slot1 + 8)))
/-- EXIT (R88). -/
def execExit (r : RWord) (s : State) : Out State :=
  issue (.exit r) s (fun g m => if m = 0 then .ok s.advance else exitBody s.cur.key s.cur.slot1 s g m)
/-- YIELD (R89). -/
def execYield (s : State) : Out State :=
  ctlWord .yield s (fun s g _ => pure (s, { (g.advance s.cur.slot1) with young := true }))
/-- SLEEP (R90): the slot goes on after the word once the tick has come; SLEEP 0 acts as YIELD. -/
def execSleep (r : IWord) (s : State) : Out State :=
  ctlWord (.sleep r) s (fun s g _ =>
    let g1 := g.advance false
    pure (s, if r.imm = 0 then { g1 with young := true }
      else { g1 with wait := .sleep, wake := s.tick + r.imm.zeroExtend 64 }))

end Sys2Proof.Machine
end

