-- ==== Sys2Proof/Machine/Code.lean ====
section
/-! DEFINITION. Reaching a word: the FETCH checks of R348, lowering (R344, R346, R347), poisoned code (R316) and
breakpoints (R362). -/
namespace Sys2Proof.Machine

/-- Whether a unit ends with the word after this one (R344): an unconditional transfer or a structured word. -/
def endsUnit (w : DWord) : Bool :=
  let op := opField w
  !w.getLsbD 63 && ((op == 2 && w.extractLsb' 23 3 == 0) || (3 ≤ op && op ≤ 6) ||
    (op == 1 && w.extractLsb' 51 3 == 7) || (7 ≤ op && op ≤ 0x0D))
/-- The words of a unit from those that the lowering reads, each with whether its sector is poisoned: up to the end that R344 sets, and
before a poisoned word, which traps when it is reached. `last` says that the previous word was a transfer or a structured word. -/
def unitWords (l : List (DWord × Bool)) (last : Bool) : List DWord :=
  match l with
  | [] => []
  | (w, poison) :: t => if poison then [] else w :: (if last then [] else unitWords t (endsUnit w))
/-- The n words of device memory from pa on, with their poison. -/
def State.codeAt (s : State) (pa n : Nat) : List (DWord × Bool) :=
  (List.range n).map (fun k => (bytesWord (s.readPhysN (pa + 8 * k) 8), s.physPoison (pa + 8 * k) 8))
/-- The object of a context's registry whose code section holds an address (R345). -/
def State.codeObject (s : State) (ctxid : BitVec 16) (pc : DWord) : Option LoadedObject :=
  s.objects.find? (fun o => o.code && o.ctxid == ctxid && o.start ≤ pc && (pc - o.start).toNat < o.len)
/-- The declared version under which a word lowers (R345): its object's, or 2.1. -/
def State.codeVersion (s : State) (ctxid : BitVec 16) (pc : DWord) : Nat := ((s.codeObject ctxid pc).map LoadedObject.version).getD 0x201
/-- The number of words from a PC to the end of its 4 KiB page, at most 256 (R344), and not beyond the end of the object's
text that holds it; outside every object it ends where an object's code section begins (R345). -/
def State.unitRoom (s : State) (ctxid : BitVec 16) (pc : DWord) : Nat :=
  let page := min 256 (512 - pc.toNat % 4096 / 8)
  match s.codeObject ctxid pc with
  | some o => min page ((o.len - (pc - o.start).toNat + 7) / 8)
  | none => s.objects.foldl (fun n o =>
      if o.code && o.ctxid == ctxid && pc < o.start then min n (((o.start - pc).toNat + 7) / 8) else n) page
/-- Whether a unit holds the word at a PC and every part of its key matches (R346). -/
def CodeUnit.holds (u : CodeUnit) (part asid version : Nat) (stepping : BitVec 16) (pc : DWord) : Bool :=
  u.part == part && u.asid.toNat == asid && u.version == version && u.stepping == stepping &&
    u.entry ≤ pc && (pc - u.entry).toNat / 8 < u.words.length
/-- The lowered word at a PC, where some unit holds it (R346). -/
def State.unitWord (s : State) (w : Who) (pc : DWord) : Option DWord :=
  (s.units.find? (fun u => u.holds w.part w.asid (s.codeVersion w.ctxid pc) s.flash.manifest.stepping pc)).bind
    (fun u => u.words[(pc - u.entry).toNat / 8]?)
/-- The unit that holds the word at a PC is the latest used (R346). -/
def State.useUnit (s : State) (w : Who) (pc : DWord) : State :=
  let f (u : CodeUnit) : Bool := u.holds w.part w.asid (s.codeVersion w.ctxid pc) s.flash.manifest.stepping pc
  if (s.units.getLast?).any f then s
  else { s with units := s.units.filter (fun u => !f u) ++ s.units.filter f }
/-- A lowered unit joins the translation cache; one of no word is not kept. -/
def State.addUnit (s : State) (w : Who) (pc : DWord) (bits : Nat) (words : List DWord) : State :=
  if words.isEmpty then s
  else { s with units := s.units ++ [{ part := w.part, asid := BitVec.ofNat 16 w.asid, entry := pc, version := s.codeVersion w.ctxid pc,
                                       stepping := s.flash.manifest.stepping, bits, words,
                                       born := s.units.foldl (fun n u => max n (u.born + 1)) 0 }] }

/-- The outcome of reaching a word: the word, a trap at it, or a wait for host memory that holds the code. -/
inductive Fetched where
  | word (s : State) (w : DWord)
  | trap (s : State) (t : Trap)
  | miss (s : State) (f : Fetch)
deriving DecidableEq, Repr
/-- A FETCH trap at a reached word (R348). -/
def fetchTrap (w0 : Nat) (pc : DWord) (cur : Mask) : Trap := trap64 4 (BitVec.ofNat 32 w0) pc cur
/-- The key of breakpoint n of a context: breakpoints are per context, and each partition has its context 0 (R360). -/
def bpKey (part asid n : Nat) : Nat := 4 * (65536 * part + asid) + n
/-- The breakpoint of the group's context at a PC (R360, R362): the lowest index for which `exempt` does not hold. -/
def State.breakAt (s : State) (w : Who) (exempt : Option Nat) (pc : DWord) : Option Nat :=
  (List.range 4).find? (fun n => exempt != some n && ((aget? (bpKey w.part w.asid n) s.breakpoints).map Breakpoint.pc) == some pc)

/-- Where the lowering finds the words from a PC on (R344): the words, or the sector that a link must bring. A link that failed the
sector gives W0 of its trap. -/
inductive CodeRead where
  | words (l : List (DWord × Bool))
  | need (f : Fetch)
  | fail (w0 : Nat)
deriving DecidableEq, Repr
/-- Whether the words read so far are all of a unit (R344): no further word would belong to it. -/
def unitWhole (l : List (DWord × Bool)) : Bool := (unitWords (l ++ [(0, false)]) false).length ≤ l.length
/-- The words that the lowering reads over a link at the point of coherence, sector by sector, after the words `l`: `room` more words at
most. A sector that a link failed ends the unit before it, unless it is the first. -/
def State.codeSectors (s : State) (tag : Target → DWord → Option LineTag) (p : Pend) (fuel room : Nat) (t : Target) (va : Nat) (l : List (DWord × Bool)) :
    CodeRead :=
  match fuel with
  | 0 => .words l
  | fuel + 1 =>
    if room = 0 || unitWhole l then .words l
    else
      let o := va % 64
      let sva := va - o
      match aget? (sva / 64) p.fails with
      | some f => if l.isEmpty then .fail f else .words l
      | none => match s.sectorAt (t.back o) (p.sector sva (t.back o)) with
        | none => .need { t := t.back o, va := canon57 sva, l1 := none, ro := none, llc := tag (t.back o) (canon57 sva), own := false }
        | some (b, poison) =>
          let n := min (8 - o / 8) room
          s.codeSectors tag p fuel (room - n) (t.fwd (8 * n)) (va + 8 * n)
            (l ++ (List.range n).map (fun k => (bytesWord ((b.drop (o + 8 * k)).take 8), poison)))
/-- The words that the lowering reads at the point of coherence, up to the unit's room or its end (R344). -/
def State.codeRead (s : State) (w : Who) (e : PermEntry) (t : Target) (pc : DWord) (p : Pend) : CodeRead :=
  let room := s.unitRoom w.ctxid pc
  match t with
  | .dev pa => .words (s.codeAt pa room)
  | _ => s.codeSectors (s.lineTag w.core w.asid e) p 64 room t (va57 pc) []
/-- The sectors that links have brought, or are bringing, to the slots of a partition are forgotten, so that a slot that waits for code reads
it again (R336, R347, R352). A load is not performed before its word commits, and asks again too. -/
def State.forgetCode (s : State) (part : Nat) : State :=
  let f (p : Option Pend) : Option Pend := p.map (fun p => p.forget (fun _ => true))
  { s with groups := s.groups.map (fun (e : Nat × Group) =>
      if (s.core e.2.core).part == part then
        (e.1, { e.2 with pend0 := f e.2.pend0, pend1 := f e.2.pend1 })
      else e) }
/-- Reaching the word at the slot's PC (R348, R344, R316): the page's checks, then the lowered word, lowered now where no
unit holds it. A PC that is no multiple of 8 (written by VSWR) traps as a misaligned target. -/
def State.fetch (s : State) (g : Group) (slot1 : Bool) : Fetched :=
  let pc := g.pc slot1
  let cur := g.mask slot1
  let w := s.whoGroup g
  if pc.toNat % 8 != 0 then .trap s (fetchTrap 1 pc cur)
  else match s.permLookup w pc with
    | .error k => .trap s (fetchTrap (2 + 256 * k) pc cur)
    | .ok e =>
      match permCheck w .fetch e with
      | .error k => .trap (s.dropPerm w pc k) (fetchTrap (2 + 256 * k) pc cur)
      | .ok () =>
        let s := s.fillPerm g.core e
        if s.objects.any (fun o => !o.ok && !g.isSup && o.ctxid == w.ctxid && o.start ≤ pc && (pc - o.start).toNat < o.len) then
          .trap s (fetchTrap (3 + 2 * 65536) pc cur)
        else match s.unitWord w pc with
          | some x => .word (s.useUnit w pc) x
          | none =>
            if s.exhausted.contains w.part then .trap s (fetchTrap (3 + 65536) pc cur)
            else match s.targetOf w e pc false with
              | .error k => .trap s (fetchTrap (2 + 256 * k) pc cur)
              | .ok t => match s.codeRead w e t pc ((g.pendOf slot1).getD Pend.empty) with
                | .fail f =>
                  .trap s (if f / 2 ^ 40 = 34 then trap64 15 1 s.tick cur else trap64 12 (BitVec.ofNat 32 f) pc cur)
                | .need f => .miss s f
                | .words l => match unitWords l false with
                  | [] => .trap s (trap64 15 1 s.tick cur)
                  | x :: rest =>
                    let s1 := match t with
                      | .dev _ => s
                      | _ => s.modGroup s.cur.key (fun g => g.setPend slot1 none)
                    .word (s1.addUnit w pc e.bits (x :: rest)) x

end Sys2Proof.Machine
end

