-- ==== Sys2Proof/Machine/Integer.lean ====
section
/-! DEFINITION. Integer, logic and address words (R92 to R103), without the pair words. -/
namespace Sys2Proof.Machine

/-! ## Operands and results -/

/-- A source modifier on an integer operand (R36): absolute value first, then negation, or complement under .b. -/
def modInt {w : Nat} (ty : Nat) (n a : Bool) (x : BitVec w) : BitVec w :=
  let y := if a && x.msb then -x else x
  if n then (if ty = 0 then ~~~y else -y) else y
/-- The value of an operand under .s or .n (R93). -/
def toZ {w : Nat} (signed : Bool) (x : BitVec w) : Int := if signed then x.toInt else (x.toNat : Int)
/-- The result narrowed to w bits (R93). -/
def narrow (w : Nat) (sat signed : Bool) (x : Int) : BitVec w :=
  if sat then
    let lo : Int := if signed then -(2 ^ (w - 1) : Nat) else 0
    let hi : Int := (if signed then 2 ^ (w - 1) else 2 ^ w : Nat) - 1
    BitVec.ofInt w (max lo (min hi x))
  else BitVec.ofInt w x
/-- Whether TY is .s. -/
def sgn (r : RWord) : Bool := xf r 7 2 == 1
/-- Source A of lane l, modified, at 32 bits. -/
def opA (g : Group) (r : RWord) (l : Nat) : Word := modInt (xf r 7 2) r.na r.aa (g.src r.a.toNat r.ua l)
/-- Source B. -/
def opB (g : Group) (r : RWord) (l : Nat) : Word := modInt (xf r 7 2) r.nb r.ab (g.src r.b.toNat r.ub l)
/-- Source C. -/
def opC (g : Group) (r : RWord) (l : Nat) : Word := modInt (xf r 7 2) r.nc r.ac (g.src r.c.toNat r.uc l)
/-- Source A at 64 bits. -/
def opA64 (g : Group) (r : RWord) (l : Nat) : DWord := modInt (xf r 7 2) r.na r.aa (g.src64 r.a.toNat r.ua l)
/-- Source B at 64 bits. -/
def opB64 (g : Group) (r : RWord) (l : Nat) : DWord := modInt (xf r 7 2) r.nb r.ab (g.src64 r.b.toNat r.ub l)
/-- Source C at 64 bits. -/
def opC64 (g : Group) (r : RWord) (l : Nat) : DWord := modInt (xf r 7 2) r.nc r.ac (g.src64 r.c.toNat r.uc l)
/-- Operands as integers. -/
def zA (g : Group) (r : RWord) (l : Nat) : Int := toZ (sgn r) (opA g r l)
def zB (g : Group) (r : RWord) (l : Nat) : Int := toZ (sgn r) (opB g r l)
def zC (g : Group) (r : RWord) (l : Nat) : Int := toZ (sgn r) (opC g r l)
def zA64 (g : Group) (r : RWord) (l : Nat) : Int := toZ (sgn r) (opA64 g r l)
def zB64 (g : Group) (r : RWord) (l : Nat) : Int := toZ (sgn r) (opB64 g r l)
def zC64 (g : Group) (r : RWord) (l : Nat) : Int := toZ (sgn r) (opC64 g r l)
/-- The poison of the register sources, given how many registers A, B and C read (R94). -/
def poisonOf (g : Group) (r : RWord) (na nb nc : Nat) : Mask :=
  g.srcPoison r.a.toNat na r.ua ||| g.srcPoison r.b.toNat nb r.ub ||| g.srcPoison r.c.toNat nc r.uc
/-- A word with a 32-bit register destination. -/
def laneWord (i : Instr) (r : RWord) (na nb nc : Nat) (f : Group → Nat → Word) (s : State) : Out State :=
  groupWord i s (fun g m => .ok (g.dst (xbit r 0) r.d.toNat m (poisonOf g r na nb nc) (f g)))
/-- A word with a 64-bit register destination. -/
def laneWord64 (i : Instr) (r : RWord) (na nb nc : Nat) (f : Group → Nat → DWord) (s : State) : Out State :=
  groupWord i s (fun g m => .ok (g.dst64 (xbit r 0) r.d.toNat m (poisonOf g r na nb nc) (f g)))
/-- A word whose exact result is narrowed to 32 bits. -/
def arithWord (i : Instr) (r : RWord) (na nb nc : Nat) (f : Group → Nat → Int) (s : State) : Out State :=
  laneWord i r na nb nc (fun g l => narrow 32 (xbit r 6) (sgn r) (f g l)) s
/-- A word whose exact result is narrowed to 64 bits. -/
def arithWord64 (i : Instr) (r : RWord) (na nb nc : Nat) (f : Group → Nat → Int) (s : State) : Out State :=
  laneWord64 i r na nb nc (fun g l => narrow 64 (xbit r 6) (sgn r) (f g l)) s
/-- An I-form word with a 32-bit lane destination. -/
def immWord (i : Instr) (r : IWord) (f : Word → Word) (s : State) : Out State :=
  groupWord i s (fun g m =>
    .ok (g.writeV r.d.toNat m (g.srcPoison r.a.toNat 1 false) (fun l => f (g.getV r.a.toNat l))))
/-- A word with a predicate destination: its sources are consumed with use 3 (R94). -/
def predWord (i : Instr) (r : RWord) (n : Nat) (f : Group → Nat → Bool) (s : State) : Out State :=
  groupWord i s (fun g m => do
    g.consume 3 m [(r.a.toNat, n, r.ua), (r.b.toNat, n, r.ub)]
    pure (g.setP r.d.toNat m (maskOf (fun l => m.getLsbD l && f g l))))

/-! ## Arithmetic (R96, R97) -/

/-- IADD. -/
def execIadd (r : RWord) (s : State) : Out State := arithWord (.iadd r) r 1 1 0 (fun g l => zA g r l + zB g r l) s
/-- IADD with an immediate. -/
def execIaddI (r : IWord) (s : State) : Out State := immWord (.iaddI r) r (fun a => a + r.imm) s
/-- IADD3. -/
def execIadd3 (r : RWord) (s : State) : Out State := arithWord (.iadd3 r) r 1 1 1 (fun g l => zA g r l + zB g r l + zC g r l) s
/-- ISUB. -/
def execIsub (r : RWord) (s : State) : Out State := arithWord (.isub r) r 1 1 0 (fun g l => zA g r l - zB g r l) s
/-- IMUL. -/
def execImul (r : RWord) (s : State) : Out State := arithWord (.imul r) r 1 1 0 (fun g l => zA g r l * zB g r l) s
/-- IMUL with an immediate. -/
def execImulI (r : IWord) (s : State) : Out State := immWord (.imulI r) r (fun a => a * r.imm) s
/-- IMULH: bits <63:32> of the exact product. -/
def execImulh (r : RWord) (s : State) : Out State := arithWord (.imulh r) r 1 1 0 (fun g l => zA g r l * zB g r l / 2 ^ 32) s
/-- IMAD. -/
def execImad (r : RWord) (s : State) : Out State := arithWord (.imad r) r 1 1 1 (fun g l => zA g r l * zB g r l + zC g r l) s
/-- IMADW: C is read, and the result narrowed, at 64 bits. -/
def execImadw (r : RWord) (s : State) : Out State :=
  arithWord64 (.imadw r) r 1 1 2 (fun g l => zA g r l * zB g r l + zC64 g r l) s
/-- The lanes with a zero divisor (R97). -/
def zeroLanes (g : Group) (r : RWord) (m : Mask) : Mask := maskOf (fun l => m.getLsbD l && opB g r l == 0)
/-- IDIV and IREM (R97): the trap on a zero divisor under ARITHMODE.DZ, then the lanes. -/
def divWord (i : Instr) (r : RWord) (f : Group → Nat → Word) (s : State) : Out State :=
  groupWord i s (fun g m =>
    let z := zeroLanes g r m
    if z ≠ 0 ∧ g.arithmode.getLsbD 1 then .error (.trap (trap0 9 0x20 z))
    else .ok (g.dst (xbit r 0) r.d.toNat m (poisonOf g r 1 1 0) (f g)))
/-- IDIV. -/
def execIdiv (r : RWord) (s : State) : Out State :=
  divWord (.idiv r) r (fun g l =>
    if opB g r l = 0 then BitVec.allOnes 32 else narrow 32 (xbit r 6) (sgn r) (Int.tdiv (zA g r l) (zB g r l))) s
/-- IREM. -/
def execIrem (r : RWord) (s : State) : Out State :=
  divWord (.irem r) r (fun g l =>
    if opB g r l = 0 then opA g r l else BitVec.ofInt 32 (zA g r l - Int.tdiv (zA g r l) (zB g r l) * zB g r l)) s
/-- IMIN. -/
def execImin (r : RWord) (s : State) : Out State := arithWord (.imin r) r 1 1 0 (fun g l => min (zA g r l) (zB g r l)) s
/-- IMAX. -/
def execImax (r : RWord) (s : State) : Out State := arithWord (.imax r) r 1 1 0 (fun g l => max (zA g r l) (zB g r l)) s
/-- ISAD. -/
def execIsad (r : RWord) (s : State) : Out State :=
  arithWord (.isad r) r 1 1 1 (fun g l => ((zA g r l - zB g r l).natAbs : Int) + zC g r l) s
/-- The sum of products of n elements of k bits (IDOT4, IDOT8). -/
def dotSum (n k : Nat) (sa sb : Bool) (a b : Word) : Int :=
  ((List.range n).map (fun j => toZ sa (a.extractLsb' (k * j) k) * toZ sb (b.extractLsb' (k * j) k))).sum
/-- IDOT4. -/
def execIdot4 (r : RWord) (s : State) : Out State :=
  arithWord (.idot4 r) r 1 1 1 (fun g l => zC g r l + dotSum 4 8 (xbit r 2) (xbit r 1) (opA g r l) (opB g r l)) s
/-- IDOT8. -/
def execIdot8 (r : RWord) (s : State) : Out State :=
  arithWord (.idot8 r) r 1 1 1 (fun g l => zC g r l + dotSum 8 4 (xbit r 2) (xbit r 1) (opA g r l) (opB g r l)) s

/-! ## Comparison, selection, logic and bits (R98) -/

/-- A condition of ICMP and CMP64. -/
def ccHolds (cc : Nat) (a b : Int) : Bool :=
  match cc with
  | 0 => a == b
  | 1 => a != b
  | 2 => a < b
  | 3 => a ≤ b
  | 4 => b < a
  | _ => b ≤ a
/-- ICMP. -/
def execIcmp (r : RWord) (s : State) : Out State := predWord (.icmp r) r 1 (fun g l => ccHolds (xf r 1 3) (zA g r l) (zB g r l)) s
/-- The lanes for which SEL takes A. -/
def selMask (g : Group) (r : RWord) : Mask := let p := g.getP r.c.toNat; if r.nc then ~~~p else p
/-- SEL: poison comes from the value selected (DEDUCED, log 21). -/
def execSel (r : RWord) (s : State) : Out State :=
  groupWord (.sel r) s (fun g m =>
    let c := selMask g r
    let poison := (g.srcPoison r.a.toNat 1 r.ua &&& c) ||| (g.srcPoison r.b.toNat 1 r.ub &&& ~~~c)
    .ok (g.dst (xbit r 0) r.d.toNat m poison (fun l => if c.getLsbD l then opA g r l else opB g r l)))
/-- AND. -/
def execAndR (r : RWord) (s : State) : Out State := laneWord (.andR r) r 1 1 0 (fun g l => opA g r l &&& opB g r l) s
/-- AND with an immediate. -/
def execAndI (r : IWord) (s : State) : Out State := immWord (.andI r) r (fun a => a &&& r.imm) s
/-- OR. -/
def execOrR (r : RWord) (s : State) : Out State := laneWord (.orR r) r 1 1 0 (fun g l => opA g r l ||| opB g r l) s
/-- OR with an immediate. -/
def execOrI (r : IWord) (s : State) : Out State := immWord (.orI r) r (fun a => a ||| r.imm) s
/-- XOR. -/
def execXorR (r : RWord) (s : State) : Out State := laneWord (.xorR r) r 1 1 0 (fun g l => opA g r l ^^^ opB g r l) s
/-- XOR with an immediate. -/
def execXorI (r : IWord) (s : State) : Out State := immWord (.xorI r) r (fun a => a ^^^ r.imm) s
/-- A source of LOP3: raw bits, complemented under its N bit. -/
def rawSrc (n : Bool) (x : Word) : Word := if n then ~~~x else x
/-- The entry of a truth table of three bits. -/
def tbl3 (tbl : Nat) (a b c : Bool) : Bool := tbl.testBit (a.toNat + 2 * b.toNat + 4 * c.toNat)
/-- LOP3. -/
def execLop3 (r : RWord) (s : State) : Out State :=
  laneWord (.lop3 r) r 1 1 1 (fun g l =>
    let a := rawSrc r.na (g.src r.a.toNat r.ua l)
    let b := rawSrc r.nb (g.src r.b.toNat r.ub l)
    let c := rawSrc r.nc (g.src r.c.toNat r.uc l)
    maskOf (fun k => tbl3 (xf r 1 8) (a.getLsbD k) (b.getLsbD k) (c.getLsbD k))) s
/-- SHL. -/
def shlWord (a : Word) (n : Nat) : Word := if 32 ≤ n then 0 else a <<< n
/-- SHR. -/
def shrWord (a : Word) (n : Nat) : Word := if 32 ≤ n then 0 else a >>> n
/-- SAR. -/
def sarWord (a : Word) (n : Nat) : Word := a.sshiftRight (min n 31)
/-- SHL. -/
def execShl (r : RWord) (s : State) : Out State := laneWord (.shl r) r 1 1 0 (fun g l => shlWord (opA g r l) (opB g r l).toNat) s
/-- SHR. -/
def execShr (r : RWord) (s : State) : Out State := laneWord (.shr r) r 1 1 0 (fun g l => shrWord (opA g r l) (opB g r l).toNat) s
/-- SAR. -/
def execSar (r : RWord) (s : State) : Out State := laneWord (.sar r) r 1 1 0 (fun g l => sarWord (opA g r l) (opB g r l).toNat) s
/-- SHF: OPX<2> is WRAP and OPX<1> is L. -/
def shfWord (wrap left : Bool) (a b c : Word) : Word :=
  let x := pair a b
  let n := if wrap then c.toNat % 32 else min c.toNat 32
  if left then hi32 (x <<< n) else lo32 (x >>> n)
/-- SHF. -/
def execShf (r : RWord) (s : State) : Out State :=
  laneWord (.shf r) r 1 1 1 (fun g l => shfWord (xbit r 2) (xbit r 1) (opA g r l) (opB g r l) (opC g r l)) s
/-- The width of the field of BFE and BFI; 0 where there is none. -/
def fieldLen (b : Word) : Nat := if 32 ≤ b.toNat % 256 then 0 else min (b.toNat / 256 % 256) (32 - b.toNat % 256)
/-- BFE. -/
def bfeWord (signed : Bool) (a b : Word) : Word :=
  let f := a.extractLsb' (b.toNat % 256) (fieldLen b)
  if signed then f.signExtend 32 else f.zeroExtend 32
/-- BFI. -/
def bfiWord (a b c : Word) : Word :=
  let pos := b.toNat % 256
  maskOf (fun k => if pos ≤ k && k < pos + fieldLen b then a.getLsbD (k - pos) else c.getLsbD k)
/-- BFE. -/
def execBfe (r : RWord) (s : State) : Out State := laneWord (.bfe r) r 1 1 0 (fun g l => bfeWord (sgn r) (opA g r l) (opB g r l)) s
/-- BFI. -/
def execBfi (r : RWord) (s : State) : Out State := laneWord (.bfi r) r 1 1 1 (fun g l => bfiWord (opA g r l) (opB g r l) (opC g r l)) s
/-- BREV. -/
def execBrev (r : RWord) (s : State) : Out State := laneWord (.brev r) r 1 0 0 (fun g l => maskOf (fun k => (opA g r l).getLsbD (31 - k))) s
/-- The index of the highest set bit, or all ones. -/
def highBit (a : Word) : Word := if a = 0 then BitVec.allOnes 32 else BitVec.ofNat 32 (Nat.log2 a.toNat)
/-- The index of the lowest set bit, or all ones. -/
def lowBit (a : Word) : Word := if a = 0 then BitVec.allOnes 32 else BitVec.ofNat 32 (lowLane a)
/-- CLZ. -/
def execClz (r : RWord) (s : State) : Out State := laneWord (.clz r) r 1 0 0 (fun g l => 31#32 - highBit (opA g r l)) s
/-- POPC. -/
def execPopc (r : RWord) (s : State) : Out State :=
  laneWord (.popc r) r 1 0 0 (fun g l => BitVec.ofNat 32 (Mask.toLanes (opA g r l)).length) s
/-- FFS. -/
def execFfs (r : RWord) (s : State) : Out State :=
  laneWord (.ffs r) r 1 0 0 (fun g l => if xbit r 1 then highBit (opA g r l) else lowBit (opA g r l)) s
/-- Byte k of PRMT. -/
def prmtByte (x : DWord) (sel : Nat) : BitVec 8 :=
  let b : BitVec 8 := x.extractLsb' (8 * (sel % 8)) 8
  if 8 ≤ sel then (if b.msb then 0xFF else 0) else b
/-- PRMT. -/
def prmtWord (a b c : Word) : Word :=
  let f (k : Nat) : BitVec 8 := prmtByte (pair a b) (c.toNat / 16 ^ k % 16)
  f 3 ++ f 2 ++ f 1 ++ f 0
/-- PRMT. -/
def execPrmt (r : RWord) (s : State) : Out State := laneWord (.prmt r) r 1 1 1 (fun g l => prmtWord (opA g r l) (opB g r l) (opC g r l)) s

/-! ## 64-bit, address and move (R99) -/

/-- MOV: OPX<1> selects .b64. -/
def execMov (r : RWord) (s : State) : Out State :=
  if xbit r 1 then laneWord64 (.mov r) r 2 0 0 (fun g l => g.src64 r.a.toNat r.ua l) s
  else laneWord (.mov r) r 1 0 0 (fun g l => g.src r.a.toNat r.ua l) s
/-- MOVI into lane registers (R40). -/
def execMovi (r : IWord) (s : State) : Out State :=
  groupWord (.movi r) s (fun g m => .ok
    (if r.im = 1 then g.dst64 false r.d.toNat m 0 (fun _ => pair 0 r.imm) else g.writeV r.d.toNat m 0 (fun _ => r.imm)))
/-- MOVI into uniform registers (R40). -/
def execMovis (r : IWord) (s : State) : Out State :=
  groupWord (.movis r) s (fun g _ => .ok
    (if r.im = 1 then g.setS64 r.d.toNat (pair 0 r.imm) false else g.setS r.d.toNat r.imm false))
/-- LEA: OPX<3:1> is k. -/
def execLea (r : RWord) (s : State) : Out State :=
  laneWord64 (.lea r) r 2 1 0 (fun g l =>
    let b := g.src r.b.toNat r.ub l
    g.src64 r.a.toNat r.ua l + ((if sgn r then b.signExtend 64 else b.zeroExtend 64) <<< xf r 1 3)) s
/-- ADD64. -/
def execAdd64 (r : RWord) (s : State) : Out State := arithWord64 (.add64 r) r 2 2 0 (fun g l => zA64 g r l + zB64 g r l) s
/-- ADD64 with an immediate. -/
def execAdd64I (r : IWord) (s : State) : Out State :=
  groupWord (.add64I r) s (fun g m =>
    .ok (g.dst64 false r.d.toNat m (g.srcPoison r.a.toNat 2 false)
      (fun l => g.src64 r.a.toNat false l + (if r.im = 1 then pair 0 r.imm else r.imm.signExtend 64))))
/-- SUB64. -/
def execSub64 (r : RWord) (s : State) : Out State := arithWord64 (.sub64 r) r 2 2 0 (fun g l => zA64 g r l - zB64 g r l) s
/-- MUL64. -/
def execMul64 (r : RWord) (s : State) : Out State := arithWord64 (.mul64 r) r 2 2 0 (fun g l => zA64 g r l * zB64 g r l) s
/-- CMP64. -/
def execCmp64 (r : RWord) (s : State) : Out State :=
  predWord (.cmp64 r) r 2 (fun g l => ccHolds (xf r 1 3) (zA64 g r l) (zB64 g r l)) s

/-! ## Special registers (R100, R101) -/

/-- A special register that names the group's place in its grid, from the block, the grid and the group; none for the
supervisor group, which has no place in a grid. -/
def placeReg (s : State) (g : Group) (n : Nat) : Option Nat :=
  match s.blockOf g with
  | none => none
  | some b => match s.gridOf b with
    | none => none
    | some k =>
      let before := (k.roles.take g.role).foldl (fun n r => n + r.ngrp) 0
      match n with
      | 0x01 => some g.gid
      | 0x02 => some g.role
      | 0x03 => some (g.gid - before)
      | 0x04 => some (b.linear % k.nbx)
      | 0x05 => some (b.linear / k.nbx % k.nby)
      | 0x06 => some (b.linear / k.nbx / k.nby)
      | 0x07 => some k.nbx
      | 0x08 => some k.nby
      | 0x09 => some k.nbz
      | 0x0A => some b.ngroup
      | 0x0B => some (k.seq % 2 ^ 32)
      | 0x0C => some b.ctxid.toNat
      | 0x0F => some k.depth
      | _ => none
/-- The value of a uniform special register; where the spec gives the supervisor group none, a free value (DESIGN CHOICE, log 5). -/
def specialReg (s : State) (g : Group) (n : Nat) : Word :=
  match n with
  | 0x0D => BitVec.ofNat 32 g.core
  | 0x0E => BitVec.ofNat 32 (g.core / 12)
  | 0x10 => lo32 s.tick
  | 0x11 => hi32 s.tick
  | 0x12 => g.fpflags
  | 0x13 => g.fpmode
  | 0x14 => g.arithmode
  | _ => match placeReg s g n with
    | some x => BitVec.ofNat 32 x
    | none => Config.freeWord s.freeCtr
/-- MOVS. -/
def execMovs (r : RWord) (s : State) : Out State :=
  stateWord (.movs r) s (fun g m =>
    let n := r.a.toNat
    let ud := xbit r 0
    let g' := if xbit r 1 then g.dst64 ud r.d.toNat m 0 (fun _ => s.tick)
      else g.dst ud r.d.toNat m 0 (fun l => if n = 0 then BitVec.ofNat 32 l else specialReg s g n)
    .ok ((s.setGroup s.cur.key g').takeFree 1))

/-! ## Indexed register access (R102) -/

/-- The register number that lane l computes from BASE and B, exactly. -/
def indexOf (g : Group) (base : Nat) (r : RWord) (l : Nat) : Int := (base : Int) + (g.src r.b.toNat r.ub l).toInt
/-- The checks of MOVRX and MOVWX: the poisoned index (use 1), then REGBOUND with the computed index (R95, R295). -/
def indexCheck (g : Group) (base : Nat) (r : RWord) (m : Mask) : Res Unit := do
  g.consume 1 m [(r.b.toNat, 1, r.ub)]
  let bad := maskOf (fun l => m.getLsbD l && (indexOf g base r l < 0 || (g.allot : Int) ≤ indexOf g base r l))
  if bad ≠ 0 then
    let l := lowLane bad
    throw (.trap (trap64 10 (BitVec.ofNat 32 (1 + 256 * base + 2 ^ 16 * l + 2 ^ 24 * (g.allot / 8)))
      (BitVec.ofInt 64 (indexOf g base r l)) bad))
/-- MOVRX. -/
def execMovrx (r : RWord) (s : State) : Out State :=
  groupWord (.movrx r) s (fun g m => do
    indexCheck g r.a.toNat r m
    let n (l : Nat) : Nat := (indexOf g r.a.toNat r l).toNat
    let poison := maskOf (fun l => m.getLsbD l && (g.poisonV (n l)).getLsbD l)
    pure (g.writeV r.d.toNat m poison (fun l => g.getV (n l) l)))
/-- MOVWX. -/
def execMovwx (r : RWord) (s : State) : Out State :=
  groupWord (.movwx r) s (fun g m => do
    indexCheck g r.d.toNat r m
    let poison := g.srcPoison r.a.toNat 1 r.ua
    pure ((Mask.toLanes m).foldl (fun h l =>
      h.writeV (indexOf g r.d.toNat r l).toNat (1#32 <<< l) poison (fun l => g.src r.a.toNat r.ua l)) g))

/-! ## Lane exchange and predicates (R103) -/

/-- The lane that supplies lane l of a SHFL, where its position lies in the segment and in the mask. -/
def shflLane (r : RWord) (mask : Mask) (k l : Nat) : Option Nat :=
  let w := 32 / 2 ^ xf r 3 3
  let p := l % w
  let j : Int := match xf r 1 2 with
    | 0 => k
    | 1 => (p : Int) - k
    | 2 => p + k
    | _ => ((p ^^^ k : Nat) : Int)
  let src := l - p + j.toNat
  if 0 ≤ j ∧ j < w ∧ mask.getLsbD src then some src else none
/-- SHFL. -/
def execShfl (r : RWord) (s : State) : Out State :=
  groupWord (.shfl r) s (fun g m => do
    g.consume 2 m [(r.b.toNat, 1, r.ub)]
    let src (l : Nat) : Option Nat := shflLane r (g.mask s.cur.slot1) (g.src r.b.toNat r.ub l).toNat l
    let pa := g.srcPoison r.a.toNat 1 r.ua
    let pc := g.srcPoison r.c.toNat 1 r.uc
    let poison := maskOf (fun l => match src l with | some k => pa.getLsbD k | none => pc.getLsbD l)
    pure (g.writeV r.d.toNat m poison (fun l => match src l with | some k => opA g r k | none => g.src r.c.toNat r.uc l)))
/-- VOTE. -/
def execVote (r : RWord) (s : State) : Out State :=
  groupWord (.vote r) s (fun g m =>
    let p := g.getP r.a.toNat
    let t := m &&& (if xbit r 3 then ~~~p else p)
    .ok (match xf r 1 2 with
      | 0 => g.setP r.d.toNat m (if t ≠ 0 then m else 0)
      | 1 => g.setP r.d.toNat m (if t = m then m else 0)
      | 2 => g.setP r.d.toNat m (if t = m ∨ t = 0 then m else 0)
      | _ => g.dst (xbit r 5) r.d.toNat m 0 (fun _ => t)))
/-- The reduction of REDUX over a list of lanes. -/
def reduxOf (r : RWord) (g : Group) (ls : List Nat) : Word :=
  let z := ls.map (fun l => zA g r l)
  let x := ls.map (fun l => opA g r l)
  match xf r 1 3 with
  | 0 => narrow 32 (xbit r 6) (sgn r) z.sum
  | 1 => BitVec.ofInt 32 (z.tail.foldl min (z.headD 0))
  | 2 => BitVec.ofInt 32 (z.tail.foldl max (z.headD 0))
  | 3 => x.foldl (· &&& ·) (BitVec.allOnes 32)
  | 4 => x.foldl (· ||| ·) 0
  | _ => x.foldl (· ^^^ ·) 0
/-- A result formed from every ACTIVE lane is poisoned where any of them is. -/
def anyPoison (p m : Mask) : Mask := if p &&& m ≠ 0 then BitVec.allOnes 32 else 0
/-- REDUX. -/
def execRedux (r : RWord) (s : State) : Out State :=
  groupWord (.redux r) s (fun g m =>
    let x := reduxOf r g (Mask.toLanes m)
    .ok (g.dst (xbit r 5) r.d.toNat m (anyPoison (g.srcPoison r.a.toNat 1 r.ua) m) (fun _ => x)))
/-- MATCH: OPX<1> is CNT and OPX<2> is W64. -/
def execMatchL (r : RWord) (s : State) : Out State :=
  groupWord (.matchL r) s (fun g m =>
    let n := if xbit r 2 then 2 else 1
    let val (l : Nat) : DWord := if xbit r 2 then opA64 g r l else pair (opA g r l) 0
    let count := ((Mask.toLanes m).map val).eraseDups.length
    .ok (g.writeV r.d.toNat m (anyPoison (g.srcPoison r.a.toNat n r.ua) m) (fun l =>
      if xbit r 1 then BitVec.ofNat 32 count else maskOf (fun k => m.getLsbD k && val k == val l))))
/-- PSET. -/
def execPset (r : RWord) (s : State) : Out State :=
  groupWord (.pset r) s (fun g m =>
    let a := g.getP r.a.toNat
    let b := g.getP r.b.toNat
    let c := g.getP r.c.toNat
    .ok (g.setP r.d.toNat m (maskOf (fun l => tbl3 (xf r 1 8) (a.getLsbD l) (b.getLsbD l) (c.getLsbD l)))))
/-- P2V. -/
def execP2v (r : RWord) (s : State) : Out State :=
  groupWord (.p2v r) s (fun g m =>
    .ok (g.writeV r.d.toNat m 0 (fun l => maskOf (fun i => i < 8 && (g.getP i).getLsbD l))))
/-- V2P. -/
def execV2p (r : RWord) (s : State) : Out State :=
  groupWord (.v2p r) s (fun g m => do
    g.consume 3 m [(r.a.toNat, 1, r.ua)]
    pure ((List.range 7).foldl (fun h i => h.setP i m (maskOf (fun l => (opA g r l).getLsbD i))) g))

end Sys2Proof.Machine
end

