-- ==== Sys2Proof/Machine/FloatOps.lean ====
section
/-! DEFINITION. Floating words (R117 to R127), conversions (R128 to R131), mode and flag words (R132, R133), and the pair words
(R43 to R47), whose halves are integer or floating operations. -/
namespace Sys2Proof.Machine

/-! ## Common parts -/

/-- RM of a word; RN in the packed-select layout (R37, R39). -/
def rmOf (r : RWord) : RM := if xbit r 8 then 0 else xf r 1 3
/-- SCL as an integer. -/
def sclOf (r : RWord) : Int := if xbit r 8 then 0 else if 4 ≤ xf r 4 3 then (xf r 4 3 : Int) - 8 else xf r 4 3
/-- SAT. -/
def satOf (r : RWord) : Bool := !xbit r 8 && xbit r 7
/-- The clamp of R38. -/
def clampEnc (f : Fmt) (y : Nat) : Nat :=
  match f.dec y with
  | .nan _ => 0
  | x => if x.neg || x.isZero then 0 else if f.one < y then f.one else y
/-- The scale, the rounding and the clamp of R118 on an operation's exact result. -/
def fpFinish (f : Fmt) (r : RWord) (x : Ex × Flags) : Nat × Flags :=
  let y := roundTo f (x.1.scale (sclOf r)) (rmOf r) false 0
  (if satOf r then clampEnc f y.1 else y.1, x.2 ||| y.2)
/-- A source's encoding in a format of 32 or 64 bits. -/
def srcEnc (f : Fmt) (g : Group) (reg : Nat) (u : Bool) (l : Nat) : Nat :=
  if f.width = 64 then (g.src64 reg u l).toNat else (g.src reg u l).toNat % 2 ^ f.width
/-- Source A, modified. -/
def encA (f : Fmt) (g : Group) (r : RWord) (l : Nat) : Nat := f.modify r.na r.aa (srcEnc f g r.a.toNat r.ua l)
/-- Source B, modified. -/
def encB (f : Fmt) (g : Group) (r : RWord) (l : Nat) : Nat := f.modify r.nb r.ab (srcEnc f g r.b.toNat r.ub l)
/-- Source C, modified. -/
def encC (f : Fmt) (g : Group) (r : RWord) (l : Nat) : Nat := f.modify r.nc r.ac (srcEnc f g r.c.toNat r.uc l)
/-- A floating word with a register destination: the ARITH trap or the flags (R112, R113), then the destination. -/
def floatWord (i : Instr) (r : RWord) (wide : Bool) (poison : Group → Mask) (res : Group → Nat → Nat × Flags) (s : State) :
    Out State :=
  groupWord i s (fun g m => do
    let ud := fpUd r
    let g1 ← commitFlags g s.cur.slot1 ud m (fun l => (res g l).2)
    pure (if wide then g1.dst64 ud r.d.toNat m (poison g) (fun l => BitVec.ofNat 64 (res g l).1)
      else g1.dst ud r.d.toNat m (poison g) (fun l => BitVec.ofNat 32 (res g l).1)))
/-- The number of registers of a value of a format. -/
def regsOf (f : Fmt) : Nat := if f.width = 64 then 2 else 1
/-- A rounded word of one source. -/
def fp1 (i : Instr) (r : RWord) (f : Fmt) (op : Ex → Ex × Flags) (s : State) : Out State :=
  floatWord i r (f.width == 64) (fun g => poisonOf g r (regsOf f) 0 0) (fun g l => fpFinish f r (op (f.dec (encA f g r l)))) s
/-- A rounded word of two sources. -/
def fp2 (i : Instr) (r : RWord) (f : Fmt) (op : Ex → Ex → Ex × Flags) (s : State) : Out State :=
  floatWord i r (f.width == 64) (fun g => poisonOf g r (regsOf f) (regsOf f) 0)
    (fun g l => fpFinish f r (op (f.dec (encA f g r l)) (f.dec (encB f g r l)))) s
/-- A rounded word of three sources. -/
def fp3 (i : Instr) (r : RWord) (f : Fmt) (op : Ex → Ex → Ex → Ex × Flags) (s : State) : Out State :=
  floatWord i r (f.width == 64) (fun g => poisonOf g r (regsOf f) (regsOf f) (regsOf f))
    (fun g l => fpFinish f r (op (f.dec (encA f g r l)) (f.dec (encB f g r l)) (f.dec (encC f g r l)))) s
/-- FMIN, FMAX and their kin: exact. -/
def fpMinMax (i : Instr) (r : RWord) (f : Fmt) (isMax : Bool) (s : State) : Out State :=
  floatWord i r (f.width == 64) (fun g => poisonOf g r (regsOf f) (regsOf f) 0)
    (fun g l => minMax f isMax (encA f g r l) (encB f g r l)) s
/-- FCMP and DCMP (R122): poison is consumed, then the flags, then the predicate. -/
def fpCompare (i : Instr) (r : RWord) (f : Fmt) (s : State) : Out State :=
  groupWord i s (fun g m => do
    g.consume 3 m [(r.a.toNat, regsOf f, r.ua), (r.b.toNat, regsOf f, r.ub)]
    let res (l : Nat) : Bool × Flags := cmpHolds r.c.toNat (f.dec (encA f g r l)) (f.dec (encB f g r l))
    let g1 ← commitFlags g s.cur.slot1 false m (fun l => (res l).2)
    pure (g1.setP r.d.toNat m (maskOf (fun l => m.getLsbD l && (res l).1))))
/-- Quotient and root bits that rounding to a format needs. -/
def fpBits (f : Fmt) : Nat := f.mw + 4
/-- 1. -/
def exOne : Ex := .fin false 1 0 false

/-! ## FP32 words (R119 to R125) -/

/-- FADD. -/
def execFadd (r : RWord) (s : State) : Out State := fp2 (.fadd r) r f32 (exAdd (rmOf r)) s
/-- FMUL. -/
def execFmul (r : RWord) (s : State) : Out State := fp2 (.fmul r) r f32 exMul s
/-- The B operand of the I forms (R120): a pattern under IM = 10, an integer under IM = 00. -/
def immEnc (r : IWord) : Nat := if r.im = 2 then r.imm.toNat else (roundTo f32 (Ex.ofInt r.imm.toInt) 0 false 0).1
/-- FADD and FMUL with an immediate (R120). -/
def fpImm (i : Instr) (r : IWord) (op : Ex → Ex → Ex × Flags) (s : State) : Out State :=
  groupWord i s (fun g m => do
    let res (l : Nat) : Nat × Flags :=
      let x := op (f32.dec (g.getV r.a.toNat l).toNat) (f32.dec (immEnc r))
      let y := roundTo f32 x.1 0 false 0
      (y.1, x.2 ||| y.2)
    let g1 ← commitFlags g s.cur.slot1 false m (fun l => (res l).2)
    pure (g1.writeV r.d.toNat m (g.srcPoison r.a.toNat 1 false) (fun l => BitVec.ofNat 32 (res l).1)))
/-- FADD with an immediate. -/
def execFaddI (r : IWord) (s : State) : Out State := fpImm (.faddI r) r (exAdd 0) s
/-- FMUL with an immediate. -/
def execFmulI (r : IWord) (s : State) : Out State := fpImm (.fmulI r) r exMul s
/-- FFMA. -/
def execFfma (r : RWord) (s : State) : Out State := fp3 (.ffma r) r f32 (exFma (rmOf r)) s
/-- FMIN. -/
def execFmin (r : RWord) (s : State) : Out State := fpMinMax (.fmin r) r f32 false s
/-- FMAX. -/
def execFmax (r : RWord) (s : State) : Out State := fpMinMax (.fmax r) r f32 true s
/-- FCMP. -/
def execFcmp (r : RWord) (s : State) : Out State := fpCompare (.fcmp r) r f32 s
/-- FRCP. -/
def execFrcp (r : RWord) (s : State) : Out State := fp1 (.frcp r) r f32 (exDiv (fpBits f32) exOne) s
/-- FRSQ. -/
def execFrsq (r : RWord) (s : State) : Out State := fp1 (.frsq r) r f32 (exRsqrt (fpBits f32)) s
/-- FSQRT. -/
def execFsqrt (r : RWord) (s : State) : Out State := fp1 (.fsqrt r) r f32 (exSqrt (fpBits f32)) s
/-- FDIV. -/
def execFdiv (r : RWord) (s : State) : Out State := fp2 (.fdiv r) r f32 (exDiv (fpBits f32)) s
/-- FEX2. -/
def execFex2 (r : RWord) (s : State) : Out State := fp1 (.fex2 r) r f32 exExp2 s
/-- FLG2. -/
def execFlg2 (r : RWord) (s : State) : Out State := fp1 (.flg2 r) r f32 exLog2 s
/-- FSIN. -/
def execFsin (r : RWord) (s : State) : Out State := fp1 (.fsin r) r f32 exSinPi s
/-- FCOS. -/
def execFcos (r : RWord) (s : State) : Out State := fp1 (.fcos r) r f32 exCosPi s
/-- FTANH. -/
def execFtanh (r : RWord) (s : State) : Out State := fp1 (.ftanh r) r f32 exTanh s
/-- The floating format of a code below 6 (R114). -/
def fmtOf (c : Nat) : Fmt := [f64, f32, f16, bf16, e4m3, e5m2].getD c f32
/-- FCLASS. -/
def execFclass (r : RWord) (s : State) : Out State :=
  let f := fmtOf r.c.toNat
  floatWord (.fclass r) r false (fun g => poisonOf g r (regsOf f) 0 0) (fun g l => (2 ^ classBit f (encA f g r l), 0)) s
/-- FRND. -/
def execFrnd (r : RWord) (s : State) : Out State :=
  floatWord (.frnd r) r false (fun g => poisonOf g r 1 0 0) (fun g l => frndEnc f32 (rmOf r) (encA f32 g r l)) s

/-! ## FP64 words (R126) -/

/-- DADD. -/
def execDadd (r : RWord) (s : State) : Out State := fp2 (.dadd r) r f64 (exAdd (rmOf r)) s
/-- DMUL. -/
def execDmul (r : RWord) (s : State) : Out State := fp2 (.dmul r) r f64 exMul s
/-- DFMA. -/
def execDfma (r : RWord) (s : State) : Out State := fp3 (.dfma r) r f64 (exFma (rmOf r)) s
/-- DMIN. -/
def execDmin (r : RWord) (s : State) : Out State := fpMinMax (.dmin r) r f64 false s
/-- DMAX. -/
def execDmax (r : RWord) (s : State) : Out State := fpMinMax (.dmax r) r f64 true s
/-- DCMP. -/
def execDcmp (r : RWord) (s : State) : Out State := fpCompare (.dcmp r) r f64 s
/-- DDIV. -/
def execDdiv (r : RWord) (s : State) : Out State := fp2 (.ddiv r) r f64 (exDiv (fpBits f64)) s
/-- DSQRT. -/
def execDsqrt (r : RWord) (s : State) : Out State := fp1 (.dsqrt r) r f64 (exSqrt (fpBits f64)) s

/-! ## Packed words (R39, R127) -/

/-- Element i of a packed source, with the select field `sel` under the packed-select layout (R39), before modifiers. -/
def packElem (f : Fmt) (r : RWord) (sel : Nat) (x : Word) (i : Nat) : Nat :=
  if !xbit r 8 then bitsOf x.toNat (16 * i) 16
  else match xf r 6 2 with
    | 0 => bitsOf x.toNat (16 * (sel / 2 ^ i % 2)) 16
    | 1 => (roundTo f ((if sel / 4 = 0 then e4m3 else e5m2).dec (bitsOf x.toNat (8 * (sel % 4)) 8)) 0 false 0).1
    | _ => (roundTo f (Ex.ofInt (BitVec.ofNat 4 (bitsOf x.toNat (4 * sel) 4)).toInt) 0 false 0).1
/-- Element i of source A. -/
def packA (f : Fmt) (g : Group) (r : RWord) (l i : Nat) : Nat := f.modify r.na r.aa (packElem f r (xf r 3 3) (g.src r.a.toNat r.ua l) i)
/-- Element i of source B. -/
def packB (f : Fmt) (g : Group) (r : RWord) (l i : Nat) : Nat := f.modify r.nb r.ab (packElem f r (xf r 0 3) (g.src r.b.toNat r.ub l) i)
/-- Element i of source C, which takes no select. -/
def packC (f : Fmt) (g : Group) (r : RWord) (l i : Nat) : Nat := f.modify r.nc r.ac (bitsOf (g.src r.c.toNat r.uc l).toNat (16 * i) 16)
/-- Two elements as one register, with the OR of their flags. -/
def pack2 (f : Nat → Nat × Flags) : Nat × Flags := ((f 0).1 + 2 ^ 16 * (f 1).1, (f 0).2 ||| (f 1).2)
/-- A packed word of two sources. -/
def packWord (i : Instr) (r : RWord) (f : Fmt) (op : Ex → Ex → Ex × Flags) (s : State) : Out State :=
  floatWord i r false (fun g => poisonOf g r 1 1 0)
    (fun g l => pack2 (fun k => fpFinish f r (op (f.dec (packA f g r l k)) (f.dec (packB f g r l k))))) s
/-- PFMA2. -/
def packFma (i : Instr) (r : RWord) (f : Fmt) (s : State) : Out State :=
  floatWord i r false (fun g => poisonOf g r 1 1 1)
    (fun g l => pack2 (fun k =>
      fpFinish f r (exFma (rmOf r) (f.dec (packA f g r l k)) (f.dec (packB f g r l k)) (f.dec (packC f g r l k))))) s
/-- PMIN2 and PMAX2. -/
def packMinMax (i : Instr) (r : RWord) (f : Fmt) (isMax : Bool) (s : State) : Out State :=
  floatWord i r false (fun g => poisonOf g r 1 1 0)
    (fun g l => pack2 (fun k => minMax f isMax (packA f g r l k) (packB f g r l k))) s
/-- PCMP2. -/
def packCompare (i : Instr) (r : RWord) (f : Fmt) (s : State) : Out State :=
  floatWord i r false (fun g => poisonOf g r 1 1 0)
    (fun g l => pack2 (fun k =>
      let x := cmpHolds r.c.toNat (f.dec (packA f g r l k)) (f.dec (packB f g r l k))
      (if x.1 then 0xFFFF else 0, x.2))) s
/-- PADD2.f16. -/
def execPadd2F16 (r : RWord) (s : State) : Out State := packWord (.padd2F16 r) r f16 (exAdd (rmOf r)) s
/-- PMUL2.f16. -/
def execPmul2F16 (r : RWord) (s : State) : Out State := packWord (.pmul2F16 r) r f16 exMul s
/-- PFMA2.f16. -/
def execPfma2F16 (r : RWord) (s : State) : Out State := packFma (.pfma2F16 r) r f16 s
/-- PMIN2.f16. -/
def execPmin2F16 (r : RWord) (s : State) : Out State := packMinMax (.pmin2F16 r) r f16 false s
/-- PMAX2.f16. -/
def execPmax2F16 (r : RWord) (s : State) : Out State := packMinMax (.pmax2F16 r) r f16 true s
/-- PCMP2.f16. -/
def execPcmp2F16 (r : RWord) (s : State) : Out State := packCompare (.pcmp2F16 r) r f16 s
/-- PADD2.bf16. -/
def execPadd2Bf16 (r : RWord) (s : State) : Out State := packWord (.padd2Bf16 r) r bf16 (exAdd (rmOf r)) s
/-- PMUL2.bf16. -/
def execPmul2Bf16 (r : RWord) (s : State) : Out State := packWord (.pmul2Bf16 r) r bf16 exMul s
/-- PFMA2.bf16. -/
def execPfma2Bf16 (r : RWord) (s : State) : Out State := packFma (.pfma2Bf16 r) r bf16 s
/-- PMIN2.bf16. -/
def execPmin2Bf16 (r : RWord) (s : State) : Out State := packMinMax (.pmin2Bf16 r) r bf16 false s
/-- PMAX2.bf16. -/
def execPmax2Bf16 (r : RWord) (s : State) : Out State := packMinMax (.pmax2Bf16 r) r bf16 true s
/-- PCMP2.bf16. -/
def execPcmp2Bf16 (r : RWord) (s : State) : Out State := packCompare (.pcmp2Bf16 r) r bf16 s

/-! ## Conversions (R128 to R131) -/

/-- A value of a format code: floating, or an integer of the code's width and signedness, from its bits, with modifiers. -/
def cvtSource (c : Nat) (n a : Bool) (x : Nat) : Ex ⊕ Int :=
  let w := fmtWidth c
  if fmtFloat c then .inl ((fmtOf c).dec ((fmtOf c).modify n a (x % 2 ^ w)))
  else
    let v : BitVec w := modInt 1 n a (BitVec.ofNat w x)
    .inr (toZ (!fmtNat c) v)
/-- The range of an integer format. -/
def intRange (c : Nat) : Int × Int :=
  let w := fmtWidth c
  if fmtNat c then (0, 2 ^ w - 1) else (-(2 ^ (w - 1)), 2 ^ (w - 1) - 1)
/-- The integer clamped to the range of a format. -/
def intClamp (c : Nat) (z : Int) : Int := max (intRange c).1 (min (intRange c).2 z)
/-- A floating value converted to an integer format (R130). -/
def floatToInt (c : Nat) (x : Ex) (rm : RM) (rbits : Nat) : Int × Flags :=
  match x with
  | .nan _ => (0, fNV)
  | .inf n => (if n then (intRange c).1 else (intRange c).2, fNV)
  | .fin n m e more =>
    let k := roundAt rm n m e more rbits 0
    let z : Int := if n then -(k.1 : Int) else k.1
    if intClamp c z = z then (z, if k.2 then fNX else 0) else (intClamp c z, fNV)
/-- One conversion: the bits of the destination's width, and the flags. -/
def convert (df sf : Nat) (x : Ex ⊕ Int) (rm : RM) (sat : Bool) (k : Int) (rbits : Nat) : Nat × Flags :=
  let bits (z : Int) : Nat := (BitVec.ofInt (fmtWidth df) z).toNat
  match x with
  | .inl v =>
    if fmtFloat df then roundTo (fmtOf df) (v.scale k) rm sat rbits
    else
      let y := floatToInt df (v.scale k) rm rbits
      (bits y.1, y.2)
  | .inr z =>
    if fmtFloat df then roundTo (fmtOf df) (Ex.ofInt z) rm sat rbits
    else if sf = df then (bits z, 0) else (bits (if sat then intClamp df z else z), 0)
/-- Bits of a destination format extended to a register or a pair: sign-extended for an S format (R128). -/
def cvtExtend (df x : Nat) : Nat :=
  let w := fmtWidth df
  if !fmtFloat df && !fmtNat df && x / 2 ^ (w - 1) % 2 == 1 then x + (2 ^ 64 - 2 ^ w) else x
/-- SR on a conversion. -/
def rbitsOf (g : Group) (r : RWord) (l : Nat) : Word := if rmOf r = 4 then g.src r.c.toNat r.uc l else 0
/-- The poison of a conversion: its source registers, and rbits under SR. -/
def cvtPoison (g : Group) (r : RWord) (n : Nat) : Mask := poisonOf g r n 0 (if rmOf r = 4 then 1 else 0)
/-- CVT. -/
def execCvt (r : RWord) (s : State) : Out State :=
  let df := r.b.toNat / 16
  let sf := r.b.toNat % 16
  let wide := fmtWidth sf == 64
  floatWord (.cvt r) r (fmtWidth df == 64) (fun g => cvtPoison g r (if wide then 2 else 1)) (fun g l =>
    let x := if wide then (g.src64 r.a.toNat r.ua l).toNat else (g.src r.a.toNat r.ua l).toNat
    let y := convert df sf (cvtSource sf r.na r.aa x) (rmOf r) (satOf r) (sclOf r) (rbitsOf g r l).toNat
    (cvtExtend df y.1, y.2)) s
/-- Element k of width w of a run of source registers (R107). -/
def runElem (g : Group) (reg : Nat) (u : Bool) (w l k : Nat) : Nat := bitsOf (g.src (reg + k * w / 32) u l).toNat (k * w % 32) w
/-- Element k of CVTP: its bits and flags. -/
def cvtpElem (g : Group) (r : RWord) (l k : Nat) : Nat × Flags :=
  let df := r.b.toNat / 16
  let sf := r.b.toNat % 16
  let w := min (fmtWidth df) (fmtWidth sf)
  convert df sf (cvtSource sf r.na r.aa (runElem g r.a.toNat r.ua (fmtWidth sf) l k)) (rmOf r) (satOf r) (sclOf r)
    ((rbitsOf g r l).rotateRight (k * w)).toNat
/-- CVTP. -/
def execCvtp (r : RWord) (s : State) : Out State :=
  groupWord (.cvtp r) s (fun g m => do
    let wd := fmtWidth (r.b.toNat / 16)
    let ws := fmtWidth (r.b.toNat % 16)
    let n := 32 / min wd ws
    let ud := fpUd r
    let g1 ← commitFlags g s.cur.slot1 ud m (fun l => (List.range n).foldl (fun f k => f ||| (cvtpElem g r l k).2) 0)
    let per := 32 / wd
    let poison := cvtPoison g r (n * ws / 32)
    pure ((List.range (n * wd / 32)).foldl (fun h j =>
      h.dst ud (r.d.toNat + j) m poison (fun l =>
        BitVec.ofNat 32 (((List.range per).map (fun q => (cvtpElem g r l (j * per + q)).1 * 2 ^ (q * wd))).sum))) g1))

/-! ## Mode and flag words (R132, R133) -/

/-- FSETM: B names FPMODE (0x13) or ARITHMODE (0x14). -/
def execFsetm (r : RWord) (s : State) : Out State :=
  groupWord (.fsetm r) s (fun g m => do
    g.consumeU 8 m [r.a.toNat, r.c.toNat]
    let a := g.getS r.a.toNat
    let c := g.getS r.c.toNat
    if r.b = 0x13 then
      pure ({ g with fpmode := ((g.fpmode &&& ~~~c) ||| a) &&& 0x1F }.setS r.d.toNat g.fpmode false)
    else pure ({ g with arithmode := ((g.arithmode &&& ~~~c) ||| a) &&& 2 }.setS r.d.toNat g.arithmode false))
/-- CLRF. -/
def execClrf (r : RWord) (s : State) : Out State :=
  groupWord (.clrf r) s (fun g m => do
    g.consumeU 8 m [r.a.toNat]
    pure ({ g with fpflags := g.fpflags &&& ~~~(g.getS r.a.toNat) }.setS r.d.toNat g.fpflags false))

/-! ## Pair words (R43 to R47) -/

/-- How a pair opcode reads its immediate and its modifiers (R47): as .b32, .s32, .n32, FP32, FP16 or BF16. -/
inductive PairTy where
  | raw | signed | natural | single | packed (f : Fmt)
deriving DecidableEq, Repr
/-- The type of a pair opcode (R47). -/
def pairTy (op : PairOp) : PairTy :=
  match op with
  | .mov | .and | .or | .xor | .shl | .shr => .raw
  | .iminN | .imaxN | .iaddSatN => .natural
  | .iadd | .isub | .imul | .imin | .imax | .sar | .iaddSat => .signed
  | .fadd | .fmul | .fmin | .fmax | .faddSat | .fmulSat => .single
  | .paddH | .pmulH | .pminH | .pmaxH => .packed f16
  | .paddB | .pmulB | .pminB | .pmaxB => .packed bf16
/-- The immediate of a half (R47). -/
def pairImm (op : PairOp) (m9 : BitVec 9) : Word :=
  let b : BitVec 8 := m9.extractLsb' 0 8
  match pairTy op with
  | .natural => b.zeroExtend 32
  | .single => BitVec.ofNat 32 (roundTo f32 (Ex.ofInt b.toInt) 0 false 0).1
  | .packed f => BitVec.ofNat 32 ((roundTo f (Ex.ofInt b.toInt) 0 false 0).1 * 65537)
  | _ => match op with
    | .shl | .shr | .sar => b.zeroExtend 32
    | _ => b.signExtend 32
/-- A modified operand of a half in the register form (R44). -/
def pairMod (op : PairOp) (n a : Bool) (x : Word) : Word :=
  match pairTy op with
  | .raw => modInt 0 n a x
  | .signed => modInt 1 n a x
  | .natural => modInt 2 n a x
  | .single => BitVec.ofNat 32 (f32.modify n a x.toNat)
  | .packed f => BitVec.ofNat 32 (f.modify n a (bitsOf x.toNat 0 16) + 2 ^ 16 * f.modify n a (bitsOf x.toNat 16 16))
/-- The rounded result, RN, of an operation on two encodings. -/
def pairRound (f : Fmt) (op : Ex → Ex → Ex × Flags) (sat : Bool) (x y : Nat) : Nat × Flags :=
  let z := op (f.dec x) (f.dec y)
  let q := roundTo f z.1 0 false 0
  (if sat then clampEnc f q.1 else q.1, z.2 ||| q.2)
/-- The floating half: FP32 once, or per element. -/
def pairFloat (op : PairOp) (f : Nat → Nat → Nat × Flags) (x y : Word) : Word × Flags :=
  match pairTy op with
  | .packed _ =>
    let z := pack2 (fun k => f (bitsOf x.toNat (16 * k) 16) (bitsOf y.toNat (16 * k) 16))
    (BitVec.ofNat 32 z.1, z.2)
  | _ =>
    let z := f x.toNat y.toNat
    (BitVec.ofNat 32 z.1, z.2)
/-- The result and flags of x op y. -/
def pairResult (op : PairOp) (x y : Word) : Word × Flags :=
  match op with
  | .mov => (y, 0)
  | .iadd => (x + y, 0)
  | .isub => (x - y, 0)
  | .imul => (x * y, 0)
  | .imin => (BitVec.ofInt 32 (min x.toInt y.toInt), 0)
  | .imax => (BitVec.ofInt 32 (max x.toInt y.toInt), 0)
  | .iminN => (BitVec.ofNat 32 (min x.toNat y.toNat), 0)
  | .imaxN => (BitVec.ofNat 32 (max x.toNat y.toNat), 0)
  | .and => (x &&& y, 0)
  | .or => (x ||| y, 0)
  | .xor => (x ^^^ y, 0)
  | .shl => (shlWord x y.toNat, 0)
  | .shr => (shrWord x y.toNat, 0)
  | .sar => (sarWord x y.toNat, 0)
  | .iaddSat => (narrow 32 true true (x.toInt + y.toInt), 0)
  | .iaddSatN => (narrow 32 true false ((x.toNat : Int) + y.toNat), 0)
  | .fadd => pairFloat op (pairRound f32 (exAdd 0) false) x y
  | .fmul => pairFloat op (pairRound f32 exMul false) x y
  | .fmin => pairFloat op (minMax f32 false) x y
  | .fmax => pairFloat op (minMax f32 true) x y
  | .faddSat => pairFloat op (pairRound f32 (exAdd 0) true) x y
  | .fmulSat => pairFloat op (pairRound f32 exMul true) x y
  | .paddH => pairFloat op (pairRound f16 (exAdd 0) false) x y
  | .pmulH => pairFloat op (pairRound f16 exMul false) x y
  | .pminH => pairFloat op (minMax f16 false) x y
  | .pmaxH => pairFloat op (minMax f16 true) x y
  | .paddB => pairFloat op (pairRound bf16 (exAdd 0) false) x y
  | .pmulB => pairFloat op (pairRound bf16 exMul false) x y
  | .pminB => pairFloat op (minMax bf16 false) x y
  | .pmaxB => pairFloat op (minMax bf16 true) x y
/-- A half in lane l (R44): D ← A op imm, or D ← D op A. -/
def halfResult (g : Group) (h : Half) (l : Nat) : Word × Flags :=
  if h.isImm then pairResult h.op (g.getV h.a.toNat l) (pairImm h.op h.m9)
  else pairResult h.op (g.getV h.d.toNat l) (pairMod h.op (h.m9.getLsbD 7) (h.m9.getLsbD 6) (g.getV h.a.toNat l))
/-- The poison of the registers that a half reads. -/
def halfPoison (g : Group) (h : Half) : Mask := h.reads.foldl (fun m x => m ||| g.poisonV x) 0
/-- PAIR_WORD (R45): both halves read before either writes, and an ARITH trap of either stops both. -/
def execPairWord (p : PairWord) (s : State) : Out State :=
  groupWord (.pairWord p) s (fun g m =>
    let f0 (l : Nat) : Flags := (halfResult g p.h0 l).2
    let f1 (l : Nat) : Flags := (halfResult g p.h1 l).2
    let t0 := trapLanes g m f0
    let t1 := trapLanes g m f1
    let t := t0 ||| t1
    let all := orFlagsOf t (fun l => f0 l ||| f1 l)
    if t ≠ 0 then
      .error (.trap (trap0 9 (all.zeroExtend 32 ||| (if t0 ≠ 0 then 0x40 else 0) ||| (if t1 ≠ 0 then 0x80 else 0)) t))
    else
      let g1 := g.orFlags s.cur.slot1 (orFlagsOf m (fun l => f0 l ||| f1 l))
      .ok ((g1.writeV p.h0.d.toNat m (halfPoison g p.h0) (fun l => (halfResult g p.h0 l).1)).writeV p.h1.d.toNat m
        (halfPoison g p.h1) (fun l => (halfResult g p.h1 l).1)))

end Sys2Proof.Machine
end

