-- ==== Sys2Proof/Machine/Matrix.lean ====
section
/-! DEFINITION. Matrix words (R213 to R233). -/
namespace Sys2Proof.Machine

/-! ## Format slots -/

/-- Format slot n of the group's grid (R115); the supervisor has none. -/
def State.slotOf (s : State) (g : Group) (n : Nat) : Nat :=
  (((s.blockOf g).bind s.gridOf).map (fun x => (x.fs.getD n 0).toNat)).getD 0
/-- Fields of a descriptor (R115). -/
def fsAF (fs : Nat) : Nat := bitsOf fs 0 4
def fsBF (fs : Nat) : Nat := bitsOf fs 4 4
def fsGS (fs : Nat) : Nat := bitsOf fs 8 2
def fsSF (fs : Nat) : Nat := bitsOf fs 10 2
def fsSM (fs : Nat) : Bool := bitsOf fs 12 1 == 1
def fsZM (fs : Nat) : Nat := bitsOf fs 13 2
def fsSAT (fs : Nat) : Bool := bitsOf fs 15 1 == 1
def fsAC (fs : Nat) : Nat := bitsOf fs 16 2
/-- Whether a code is an element format of a slot. -/
def elemFmt (c : Nat) : Bool := [2, 3, 4, 5, 12, 13, 14, 15].contains c
/-- Whether a descriptor is valid (R116). -/
def slotValid (fs : Nat) : Bool :=
  let a := fsAF fs
  let b := fsBF fs
  let ints := 12 ≤ a && 12 ≤ b
  fs == 0 || (elemFmt a && elemFmt b && ((12 ≤ a) == (12 ≤ b)) &&
    (ints || (((a == 4 || a == 5) && (b == 4 || b == 5)) || a == b)) &&
    (ints || (fsGS fs == 0 && fsSF fs == 0 && !fsSM fs && fsZM fs == 0)) && ((fsGS fs != 0) == (fsSF fs != 0)) &&
    (fsAC fs != 1 || (ints && fsGS fs == 0)) && fsAC fs ≤ 1 && fsSF fs ≤ 1 && fs / 2 ^ 18 == 0)
/-- Whether MMA and MMAQ accept a slot (R215). -/
def slotMma (fs : Nat) : Bool :=
  fs != 0 && fsGS fs == 0 && fsSF fs == 0 &&
    (if fsAF fs < 12 then fsBF fs < 12 && fsAC fs == 0 else 12 ≤ fsBF fs && fmtWidth (fsAF fs) == fmtWidth (fsBF fs))
/-- Whether MMAQS accepts a slot. -/
def slotMmaqs (fs : Nat) : Bool := 12 ≤ fsAF fs && 12 ≤ fsBF fs && fsGS fs != 0 && fsSF fs == 1 && fsAC fs == 0
/-- Reason 5 for a slot that the word refuses; the supervisor is refused under R51. -/
def slotBad (ok : Nat → Bool) (r : RWord) (s : State) (g : Group) : List Nat :=
  if g.isSup then [] else seg5 (!ok (s.slotOf g (xf r 6 3)))

/-! ## Elements and sums -/

/-- An element: a floating value or an integer. -/
abbrev Elem := Ex ⊕ Int
/-- An element of a format from its bits. -/
def elemOf (c x : Nat) : Elem := cvtSource c false false x
/-- The floating value of an element. -/
def Elem.ex : Elem → Ex
  | .inl x => x
  | .inr z => Ex.ofInt z
/-- The integer of an element. -/
def Elem.int : Elem → Int
  | .inl _ => 0
  | .inr z => z
/-- The elements of lane l's run from reg (R107). -/
def laneElems (g : Group) (reg c l n : Nat) : List Elem := (List.range n).map (fun k => elemOf c (runElem g reg false (fmtWidth c) l k))
/-- ⌊log2⌋ of a finite value that is not 0. -/
def Ex.log2 : Ex → Int
  | .fin _ m e _ => (Nat.log2 m : Int) + e
  | _ => 0
/-- A finite value truncated toward zero to a multiple of 2^q, in units of 2^q. -/
def Ex.truncTo (q : Int) : Ex → Int
  | .fin n m e _ =>
    let x : Nat := if q ≤ e then m * 2 ^ (e - q).toNat else m / 2 ^ (q - e).toNat
    if n then -(x : Int) else x
  | _ => 0
/-- A multiple of 2^q. -/
def exUnits (x q : Int) : Ex := .fin (x < 0) x.natAbs q false
/-- Whether a value is an infinity of the sign. -/
def Ex.isInf (neg : Bool) : Ex → Bool
  | .inf n => n == neg
  | _ => false
/-- The NaN or the infinity that terms give (R220, R223), with the flag of opposing infinities. -/
def specialSum (l : List Ex) : Option Ex × Flags :=
  let p := l.any (Ex.isInf false)
  let n := l.any (Ex.isInf true)
  let f : Flags := if p && n then fNV else 0
  if l.any Ex.isNan || (p && n) then (some (.nan false), f)
  else if p then (some (.inf false), f)
  else if n then (some (.inf true), f)
  else (none, f)
/-- The sum of one alignment group (R220). -/
def groupSum (ps : List Ex) : Ex × Flags :=
  match specialSum ps with
  | (some x, f) => (x, f)
  | (none, f) =>
    let nz := ps.filter (fun p => !p.isZero)
    match nz.map Ex.log2 with
    | [] => (.fin (ps.all Ex.neg) 0 0 false, f)
    | e :: es =>
      let q := es.foldl max e - 28
      (exUnits ((nz.map (Ex.truncTo q)).sum) q, f)
/-- acc ← RoundTo(acc + S, f32, RN) on encodings. -/
def accAdd (acc : Nat) (x : Ex) : Nat × Flags :=
  let y := exAdd 0 (f32.dec acc) x
  let z := roundTo f32 y.1 0 false 0
  (z.1, y.2 ||| z.2)
/-- One element of a float MMA or MMAQ (R220). -/
def floatDot (acc : Nat) (a b : List Elem) : Nat × Flags :=
  let ps := a.zipWith (fun x y => exMul x.ex y.ex) b
  let s := groupSum (ps.map Prod.fst)
  let y := accAdd acc s.1
  (y.1, ps.foldl (fun f p => f ||| p.2) (s.2 ||| y.2))
/-- The exact integer sum of products. -/
def intDot (a b : List Int) : Int := (a.zipWith (· * ·) b).sum
/-- One element of an integer MMA or MMAQ (R221). -/
def intElem (fs acc : Nat) (sum : Int) : Nat × Flags :=
  if fsAC fs = 1 then ((narrow 32 (fsSAT fs) true ((BitVec.ofNat 32 acc).toInt + sum)).toNat, 0) else accAdd acc (Ex.ofInt sum)
/-- T × σ for a finite σ; an integer zero gives +0 (R222). -/
def exTimes (t : Int) (x : Ex) : Ex :=
  if t = 0 then .fin false 0 0 false
  else match x with
    | .fin n m e more => .fin (n != decide (t < 0)) (m * t.natAbs) e more
    | .inf n => .inf (n != decide (t < 0))
    | .nan s => .nan s
/-- What a scale group contributes (R223): T, the scales, σ, and the flags of forming it. -/
structure ScaleTerm where
  t : Int
  sa : Ex
  sb : Ex
  sig : Ex
  flags : Flags
deriving DecidableEq, Repr
/-- The term of one group. -/
def scaleTerm (t : Int) (sa sb : Ex) : ScaleTerm :=
  let p := exMul sa sb
  let bad := p.1.isInf false || p.1.isInf true
  { t, sa, sb, sig := if bad && t == 0 then .nan false else p.1, flags := p.2 ||| (if bad && t == 0 then fNV else 0) }
/-- One element of MMAQS in block-exact mode (R222). -/
def blockExact (acc : Nat) (l : List ScaleTerm) : Nat × Flags :=
  l.foldl (fun (q : Nat × Flags) (x : ScaleTerm) =>
    let c := match x.sig with
      | .fin _ _ _ _ => let y := roundTo f32 (exTimes x.t x.sig) 0 false 0; (f32.dec y.1, y.2)
      | _ => (exTimes x.t x.sig, 0)
    let c1 : Ex := if x.sig.isNan then .nan false else c.1
    let y := accAdd q.1 c1
    (y.1, q.2 ||| x.flags ||| c.2 ||| y.2)) (acc, 0)
/-- One element of MMAQS in aligned mode (R222, R223). -/
def alignedSum (acc : Nat) (l : List ScaleTerm) : Nat × Flags :=
  let sp := specialSum (l.map (fun x => if x.sig.isNan then .nan false else exTimes x.t x.sig))
  let fl := l.foldl (fun f x => f ||| x.flags) sp.2
  let fin := l.filter (fun x => match x.sig with
    | .fin _ m _ _ => m != 0
    | _ => false)
  let s : Ex := match sp.1 with
    | some x => x
    | none => match fin.map (fun x => x.sa.log2 + x.sb.log2) with
      | [] => .fin false 0 0 false
      | e :: es =>
        let q := es.foldl max e - 40
        exUnits ((fin.map (fun x => Ex.truncTo q (exTimes x.t x.sig))).sum) q
  let y := accAdd acc s
  (y.1, fl ||| y.2)

/-! ## Matrix products -/

/-- A member of a word: its key, its group, its fields, its ACTIVE. -/
structure Member where
  key : Nat
  g : Group
  r : RWord
  m : Mask
deriving DecidableEq, Repr
/-- The shape of a word (R216, R217): joint or not, scaled or not, and its slot. -/
structure Shape where
  joint : Bool
  scaled : Bool
  fs : Nat
deriving DecidableEq, Repr
/-- K. -/
def Shape.k (h : Shape) : Nat := if h.scaled then 128 else 256 / fmtWidth (fsAF h.fs)
/-- The registers of the A run. -/
def Shape.aRegs (h : Shape) : Nat := h.k * fmtWidth (fsAF h.fs) / 32
/-- The registers of the B run. -/
def Shape.bRegs (h : Shape) : Nat := (if h.joint then h.k / 2 else h.k) * fmtWidth (fsBF h.fs) / 32
/-- The columns. -/
def Shape.cols (h : Shape) : Nat := if h.joint then 64 else 32
/-- Scale groups. -/
def Shape.groups (h : Shape) : Nat := if h.scaled then 128 / (16 * 2 ^ fsGS h.fs) else 1
/-- The member and the lanes that hold column j of B (R216). -/
def Shape.colAt (h : Shape) (j : Nat) : Nat × List Nat := if h.joint then (j / 16, [j % 16, j % 16 + 16]) else (0, [j])
/-- Column j of B. -/
def Shape.column (h : Shape) (ms : List Member) (j : Nat) : List Elem :=
  match ms[(h.colAt j).1]? with
  | none => []
  | some x => (h.colAt j).2.flatMap (fun l => laneElems x.g x.r.b.toNat (fsBF h.fs) l (if h.joint then h.k / 2 else h.k))
/-- FP16 scale t and the zero point t from a scale register run's half (R217): reg is C or C + 4. -/
def scaleAt (g : Group) (reg l t : Nat) : Ex := f16.dec (bitsOf (g.getV (reg + t / 2) l).toNat (16 * (t % 2)) 16)
/-- A zero point that is read as a value of its element format; 0 where ZM excludes its side. -/
def zeroAt (g : Group) (reg l t c : Nat) (on : Bool) : Int :=
  if on then (elemOf c (runElem g (reg + 2) false (fmtWidth c) l t)).int else 0
/-- ZM gives zero points on the A side, on the B side. -/
def zmA (fs : Nat) : Bool := fsZM fs % 2 == 1
def zmB (fs : Nat) : Bool := 2 ≤ fsZM fs
/-- Element (l, j) of a member's C: the new encoding and its flags. -/
def matElem (h : Shape) (ms : List Member) (x : Member) (l j : Nat) : Nat × Flags :=
  let fs := h.fs
  let acc := (x.g.getV (x.r.d.toNat + j) l).toNat
  let a := laneElems x.g x.r.a.toNat (fsAF fs) l h.k
  let b := h.column ms j
  if h.scaled then
    let n := h.k / h.groups
    match ms[j / 16]? with
    | none => (acc, 0)
    | some y =>
      let terms := (List.range h.groups).map (fun t =>
        let za := zeroAt x.g x.r.c.toNat l t (fsAF fs) (zmA fs)
        let zb := zeroAt y.g (y.r.c.toNat + 4) (j % 16) t (fsBF fs) (zmB fs)
        let qa := ((a.drop (n * t)).take n).map (fun e => e.int - za)
        let qb := ((b.drop (n * t)).take n).map (fun e => e.int - zb)
        scaleTerm (intDot qa qb) (scaleAt x.g x.r.c.toNat l t) (scaleAt y.g (y.r.c.toNat + 4) (j % 16) t))
      if fsSM fs then alignedSum acc terms else blockExact acc terms
  else if fsAF fs < 12 then floatDot acc a b
  else intElem fs acc (intDot (a.map Elem.int) (b.map Elem.int))
/-- Whether any of n registers of lane l from reg is poisoned. -/
def runPoisoned (g : Group) (reg n l : Nat) : Bool := (List.range n).any (fun k => (g.poisonV (reg + k)).getLsbD l)
/-- Whether element (l, j) of a member's C is written poisoned (R219). -/
def matPoison (h : Shape) (ms : List Member) (x : Member) (l j : Nat) : Bool :=
  let sc := (h.groups + 1) / 2
  runPoisoned x.g x.r.a.toNat h.aRegs l || (x.g.poisonV (x.r.d.toNat + j)).getLsbD l ||
    (match ms[(h.colAt j).1]? with
      | none => false
      | some y => (h.colAt j).2.any (fun k => runPoisoned y.g y.r.b.toNat h.bRegs k) ||
        (h.scaled && (runPoisoned y.g (y.r.c.toNat + 4) sc (j % 16) || (zmB h.fs && runPoisoned y.g (y.r.c.toNat + 6) 1 (j % 16))))) ||
    (h.scaled && (runPoisoned x.g x.r.c.toNat sc l || (zmA h.fs && runPoisoned x.g (x.r.c.toNat + 2) 1 l)))
/-- The rows of a member: for each ACTIVE lane, its new elements and the OR of their flags (R218). -/
def matRows (h : Shape) (ms : List Member) (x : Member) : List (Nat × (List Nat × Flags)) :=
  (Mask.toLanes x.m).map (fun l =>
    let es := (List.range h.cols).map (matElem h ms x l)
    (l, (es.map Prod.fst, es.foldl (fun f e => f ||| e.2) 0)))
/-- The flags of a lane of rows. -/
def rowFlags (rows : List (Nat × (List Nat × Flags))) (l : Nat) : Flags := ((aget? l rows).map Prod.snd).getD 0
/-- A member's rows written, with its flags merged (R224, R233). -/
def matCommit (h : Shape) (ms : List Member) (x : Member) (rows : List (Nat × (List Nat × Flags))) : Group :=
  let g1 := (List.range h.cols).foldl (fun g j =>
    g.writeV (x.r.d.toNat + j) x.m (maskOf (fun l => matPoison h ms x l j))
      (fun l => BitVec.ofNat 32 ((((aget? l rows).map Prod.fst).getD []).getD j 0))) x.g
  g1.orFlags false (orFlagsOf x.m (rowFlags rows))
/-- MMA (R225). -/
def execMma (r : RWord) (s : State) : Out State :=
  issueWith (.mma r) s (slotBad slotMma r s) (fun _ => []) (fun g m =>
    if m = 0 then .ok s.advance
    else
      let h : Shape := { joint := false, scaled := false, fs := s.slotOf g (xf r 6 3) }
      let x : Member := { key := s.cur.key, g, r, m }
      let rows := matRows h [x] x
      let t := trapLanes g m (rowFlags rows)
      if t ≠ 0 then .error (.trap (arithTrap (orFlagsOf t (rowFlags rows)) t))
      else .ok (s.setGroup s.cur.key (matCommit h [x] x rows)).advance)

/-! ## Joint words -/

/-- The fields of an R-form word that stands at a joint word, from its bits. -/
def jointFields (w : DWord) : Option RWord :=
  match Sys2Proof.decodeWord w with
  | .mmaq r => some r
  | .mmaqs r => some r
  | _ => none
/-- A member of a quad that stands at a joint word, ready (R227). -/
def State.jointMember (s : State) (k : Nat) : Option (DWord × Member) :=
  match s.group? k with
  | none => none
  | some g => match g.wait with
    | .joint w =>
      if g.parked || g.inEntry || g.state != .running then none
      else (jointFields w).map (fun r => (w, { key := k, g, r, m := g.mask0 }))
    | _ => none
/-- The keys of quad q of block b (R213). -/
def quadKeys (b q : Nat) : List Nat := (List.range 4).map (fun i => groupKey b (4 * q + i))
/-- The next joint word of quad q of a block uses the quarter of the next member (R227). -/
def Block.nextQuad (k : Block) (q : Nat) : Block := { k with quadR := aset 0 q ((aval 0 q k.quadR + 1) % 4) k.quadR }
/-- A formed quad (R227 to R229): the words are checked against each other, and the joint word issues: all four members commit, or those
with an enabled flag trap and the others stand again. -/
def State.formQuad (s : State) (b q : Nat) (l : List (DWord × Member)) : State :=
  let ms := l.map Prod.snd
  let w0 := (l.map Prod.fst).headD 0
  let fsn (x : Member) : Nat := xf x.r 6 3
  let f0 := (ms.map fsn).headD 0
  if l.any (fun e => opField e.1 != opField w0) || ms.any (fun x => fsn x != f0) then
    ms.foldl (fun s x => s.takeTrapAt x.key x.g false x.g.pc0 (trap0 19 (BitVec.ofNat 32 (9 + 16 * q)) x.m)) s
  else
    let h : Shape := { joint := true, scaled := opField w0 == 0x122, fs := ((ms.map (fun x => s.slotOf x.g f0)).headD 0) }
    let rows := ms.map (fun x => (x, matRows h ms x))
    let bad := rows.filter (fun e => trapLanes e.1.g e.1.m (rowFlags e.2) != 0)
    let s1 := s.modBlock b (fun k => k.nextQuad q)
    if bad.isEmpty then rows.foldl (fun s e => s.setGroup e.1.key ((matCommit h ms e.1 e.2).advance false)) s1
    else bad.foldl (fun s e =>
      let t := trapLanes e.1.g e.1.m (rowFlags e.2)
      s.takeTrapAt e.1.key e.1.g false e.1.g.pc0 (arithTrap (orFlagsOf t (rowFlags e.2)) t)) s1
/-- A joint word that the group of `cur` reaches (R227, R229): it traps where its quad can never form, forms the quad where the
other members stand at their words, and otherwise waits. -/
def jointWord (i : Instr) (ok : Nat → Bool) (runs : Group → List RegRun) (r : RWord) (s : State) : Out State :=
  issueWith i s (slotBad ok r s) runs (fun g _ =>
    let q := g.gid / 4
    let b := g.blk.getD 0
    let ended := (quadKeys b q).any (fun k => (s.group? k).any (fun x => x.state == .ended))
    if ((s.blockOf g).map Block.ngroup).getD 0 < 4 * q + 4 || ended then
      .error (.trap (trap0 19 (BitVec.ofNat 32 (8 + 16 * q)) g.mask0))
    else
      let s1 := s.modGroup s.cur.key (fun g => { g with wait := .joint (wordOf i) })
      match (quadKeys b q).mapM s1.jointMember with
      | some l => .ok (s1.formQuad b q l)
      | none => .ok s1)
/-- MMAQ (R226). -/
def execMmaq (r : RWord) (s : State) : Out State := jointWord (.mmaq r) slotMma (fun _ => []) r s
/-- The runs of MMAQS: those of A and B depend on the slot (R217). -/
def mmaqsRuns (r : RWord) (s : State) (g : Group) : List RegRun :=
  let h : Shape := { joint := true, scaled := true, fs := s.slotOf g (xf r 6 3) }
  [{ field := 0, h1 := false, first := r.d.toNat, len := 64 }, { field := 1, h1 := false, first := r.a.toNat, len := h.aRegs },
   { field := 2, h1 := false, first := r.b.toNat, len := h.bRegs }, { field := 3, h1 := false, first := r.c.toNat, len := 8 }]
/-- MMAQS (R226). -/
def execMmaqs (r : RWord) (s : State) : Out State := jointWord (.mmaqs r) slotMmaqs (mmaqsRuns r s) r s
/-- QUAD_FORM (R227): the four members stand at joint words. -/
def execQuadForm (blk quad : Nat) (s : State) : Out State :=
  match (quadKeys blk quad).mapM s.jointMember with
  | some l => .next (s.formQuad blk quad l)
  | none => .fault .notNow

/-! ## Zeroing, conversion, slot reads -/

/-- MZERO (R230). -/
def execMzero (r : RWord) (s : State) : Out State :=
  groupWord (.mzero r) s (fun g m => .ok ((List.range (8 * 2 ^ xf r 0 2)).foldl (fun g k => g.writeV (r.d.toNat + k) m 0 (fun _ => 0)) g))
/-- The elements that MCVT converts, and its destination registers (R231). -/
def mcvtN (r : RWord) : Nat := if xbit r 3 then 64 else 32
def mcvtRegs (r : RWord) (fs : Nat) : Nat := mcvtN r * fmtWidth (fsAF fs) / 32
/-- The reasons that depend on MCVT's slot: an empty slot, a destination off its alignment. -/
def mcvtBad (r : RWord) (s : State) (g : Group) : List Nat :=
  if g.isSup then []
  else
    let fs := s.slotOf g (xf r 6 3)
    if fs = 0 then [5] else if r.d.toNat % min 8 (mcvtRegs r fs) ≠ 0 then [6] else []
/-- The runs of MCVT. -/
def mcvtRuns (r : RWord) (s : State) (g : Group) : List RegRun :=
  [{ field := 0, h1 := false, first := r.d.toNat, len := mcvtRegs r (s.slotOf g (xf r 6 3)) },
   { field := 1, h1 := false, first := r.a.toNat, len := mcvtN r }]
/-- Element k of a lane, converted. -/
def mcvtElem (fs : Nat) (r : RWord) (g : Group) (l k : Nat) : Nat × Flags :=
  let sf := if fsAC fs = 1 then 8 else 1
  convert (fsAF fs) sf (cvtSource sf false false (g.getV (r.a.toNat + k) l).toNat) (xf r 4 2) (fsSAT fs) 0 0
/-- MCVT (R231). -/
def execMcvt (r : RWord) (s : State) : Out State :=
  issueWith (.mcvt r) s (mcvtBad r s) (mcvtRuns r s) (fun g m =>
    if m = 0 then .ok s.advance
    else do
      let fs := s.slotOf g (xf r 6 3)
      let w := fmtWidth (fsAF fs)
      let per := 32 / w
      let rows := (Mask.toLanes m).map (fun l => (l, (List.range (mcvtN r)).map (mcvtElem fs r g l)))
      let row (l : Nat) : List (Nat × Flags) := (aget? l rows).getD []
      let g1 ← commitFlags g false false m (fun l => (row l).foldl (fun f e => f ||| e.2) 0)
      let g2 := (List.range (mcvtRegs r fs)).foldl (fun h k =>
        h.writeV (r.d.toNat + k) m (maskOf (fun l => (List.range per).any (fun j => (g.poisonV (r.a.toNat + per * k + j)).getLsbD l)))
          (fun l => BitVec.ofNat 32 (((List.range per).map (fun j => ((row l).getD (per * k + j) (0, 0)).1 % 2 ^ w * 2 ^ (w * j))).sum))) g1
      pure (s.setGroup s.cur.key g2).advance)
/-- FSLOT (R232). -/
def execFslot (r : RWord) (s : State) : Out State :=
  groupWord (.fslot r) s (fun g _ => .ok (g.setS64 r.d.toNat (BitVec.ofNat 64 (s.slotOf g (xf r 6 3))) false))

end Sys2Proof.Machine
end

