-- ==== Sys2Proof/Machine/Record.lean ====
section
/-! DEFINITION. The ballast records of blocks and groups (R206, R313 to R315): their layout, the words that VSRD and VSWR
address, and what a swap-out saves and a swap-in restores. -/
namespace Sys2Proof.Machine

/-! ## Places (R313) -/

/-- Where the local image stands in a block record. -/
def localOff (roles : List Role) : Nat :=
  (groupRecOff roles ((roles.map Role.ngrp).sum) + 4095) / 4096 * 4096
/-- Where the engine records stand. -/
def engOff (roles : List Role) (localSize : Nat) : Nat := localOff roles + localSize
/-- The bytes of a block record: 1,280 engine records of 128 bytes end it. -/
def recSize (roles : List Role) (localSize : Nat) : Nat := engOff roles localSize + 163840

/-! ## The group record (R314) -/

/-- WAIT of the group header. -/
def Wait.code : Wait → Nat
  | .again k => k
  | .bar _ => 1
  | .gangbar => 2
  | .tbwait _ _ => 3
  | .tbwoken _ => 3
  | .twait _ => 4
  | .cwait _ => 5
  | .regacq _ => 6
  | .sleep => 7
  | .joint _ => 8
  | .syscallb => 9
  | .none | .waitc _ _ | .engineSlot _ | .undivided | .splitTop | .halt | .posted _ | .drain _ | .tags _ | .lower | .settle => 0
/-- STATE of the group header: 3 for a group of a stopped block that neither ended nor parked (R311). -/
def Group.stateCode (g : Group) (stopped : Bool) : Nat :=
  match g.state with
  | .ended => 1
  | .moored | .released => 2
  | .running => if stopped then 3 else 0
/-- Bytes packed into one word, the lowest first. -/
def word4 (a b c d : Nat) : Word := BitVec.ofNat 32 (a % 256 + 256 * (b % 256) + 65536 * (c % 256) + 2 ^ 24 * (d % 256))
/-- Word n of the group header. -/
def Group.headWord (g : Group) (stopped : Bool) (n : Nat) : Word :=
  match n with
  | 0 => lo32 g.pc0
  | 1 => hi32 g.pc0
  | 2 => lo32 g.pc1
  | 3 => hi32 g.pc1
  | 4 => g.mask0
  | 5 => g.mask1
  | 6 => g.live
  | 7 => word4 ((if g.run1 then 1 else 0) + 2 * g.held.toNat) g.depth g.spill (g.allot / 8)
  | 8 => g.fpflags
  | 9 => g.fpmode
  | 10 => g.arithmode
  | 11 => BitVec.ofNat 32 (g.ccopy % 65536 + 65536 * (g.cgath % 65536))
  | 12 => lo32 g.tmask
  | 13 => hi32 g.tmask
  | 14 => lo32 g.entrypc
  | 15 => hi32 g.entrypc
  | 16 => lo32 g.spc
  | 17 => hi32 g.spc
  | 18 => g.smask
  | 19 => word4 ((if g.inEntry then 1 else 0) + (if g.arr then 2 else 0)) g.sdepth (g.stateCode stopped) g.wait.code
  | 20 => lo32 g.wake
  | 21 => hi32 g.wake
  | 22 => if g.hint then 1 else 0
  | 23 => BitVec.ofNat 32 g.trap.cause
  | 24 => g.trap.w0
  | 25 => g.trap.w1
  | 26 => g.trap.w2
  | 27 => g.trap.lanes
  | 28 => lo32 g.trapVpc
  | 29 => hi32 g.trapVpc
  | 30 => if g.trapSlot then 1 else 0
  | 31 => g.trap.unfin
  | n => if n < 64 then BitVec.ofNat 32 (leNat ((List.range 4).map (fun k => aval 0 (4 * (n - 32) + k) g.failrec))) else 0
/-- The predicates of one lane as a byte: bit i is pi. -/
def Group.predByte (g : Group) (l : Nat) : Nat :=
  ((List.range 8).map (fun i => if (g.getP i).getLsbD l then 2 ^ i else 0)).sum
/-- Word n of the stack area: on chip, or in memory; none at or above DEPTH, or where context 0 does not reach it. -/
def State.stackWord (s : State) (g : Group) (n : Nat) : Option Word :=
  let pos := n / 8
  if g.depth ≤ pos then none
  else if g.spill ≤ pos then
    (g.stack[g.depth - 1 - pos]?).map (fun e => BitVec.ofNat 32 (leNat ((e.bytes.drop (4 * (n % 8))).take 4)))
  else match s.stackArea g with
    | none => none
    | some a => match s.ctx0Nat (s.core g.core).part (a + BitVec.ofNat 64 (4 * n)) 4 with
      | .ok x => some (BitVec.ofNat 32 x)
      | .error _ => none
/-- Word n of a group's record as a swap-out would lay it out now; none for a stack word where no entry stands. -/
def State.groupWordAt (s : State) (g : Group) (n : Nat) : Option Word :=
  if n < 64 then some (g.headWord (((s.blockOf g).map Block.stopped).getD false) n)
  else if n < 128 then some (g.getS (n - 64))
  else if n < 136 then
    let l := 4 * (n - 128)
    some (word4 (g.predByte l) (g.predByte (l + 1)) (g.predByte (l + 2)) (g.predByte (l + 3)))
  else if n < 138 then some (if n = 136 then lo32 g.sPoison else hi32 g.sPoison)
  else if n < 192 then some 0
  else if n < 704 then s.stackWord g (n - 192)
  else if n < 960 then some (g.poisonV (n - 704))
  else if n < 1024 then some 0
  else some (g.getV ((n - 1024) / 32) ((n - 1024) % 32))

/-! ## VSWR (R303) -/

/-- One half of a 64-bit field replaced. -/
def setHalf (x : DWord) (hi : Bool) (w : Word) : DWord := if hi then pair (lo32 x) w else pair w (hi32 x)
/-- The predicates of one lane written from a byte. -/
def Group.setPredByte (g : Group) (l b : Nat) : Group :=
  (List.range 7).foldl (fun g i => g.setP i (1#32 <<< l) (if b / 2 ^ i % 2 = 1 then 1#32 <<< l else 0)) g
/-- A writable word of a group's header and registers written; none where it is not writable. A PC that changes ends
the retry of the slot's old word. -/
def Group.setWord (g : Group) (n : Nat) (x : Word) : Option Group :=
  match n with
  | 0 => some ({ g with pc0 := setHalf g.pc0 false x }.endRedo false)
  | 1 => some ({ g with pc0 := setHalf g.pc0 true x }.endRedo false)
  | 2 => some ({ g with pc1 := setHalf g.pc1 false x }.endRedo true)
  | 3 => some ({ g with pc1 := setHalf g.pc1 true x }.endRedo true)
  | 4 => some { g with mask0 := x &&& g.live }
  | 5 => some { g with mask1 := x &&& g.live }
  | 7 => some { g with held := (x.extractLsb' 1 5) }
  | 8 => some { g with fpflags := x &&& 0x1F }
  | 9 => some { g with fpmode := x &&& 0x1F }
  | 10 => some { g with arithmode := x &&& 2 }
  | 12 => some { g with tmask := setHalf g.tmask false x }
  | 13 => some { g with tmask := setHalf g.tmask true x }
  | 14 => some { g with entrypc := setHalf g.entrypc false x }
  | 15 => some { g with entrypc := setHalf g.entrypc true x }
  | 31 => some { g with trap := { g.trap with unfin := x } }
  | n =>
    if 64 ≤ n ∧ n < 128 then some (g.setS (n - 64) x false)
    else if 128 ≤ n ∧ n < 136 then
      some ((List.range 4).foldl (fun g k => g.setPredByte (4 * (n - 128) + k) (x.toNat / 256 ^ k % 256)) g)
    else if n = 136 then some { g with sPoison := setHalf g.sPoison false x }
    else if n = 137 then some { g with sPoison := setHalf g.sPoison true x }
    else if 704 ≤ n ∧ n < 960 then some (g.setPoisonV (n - 704) (BitVec.allOnes 32) x)
    else if 1024 ≤ n then
      let i := (n - 1024) / 32
      let l := (n - 1024) % 32
      some ((g.setV i l x).setPoisonV i (1#32 <<< l) 0)
    else none
/-- A word of the stack area below DEPTH written, on chip or in memory; none where no entry stands. -/
def State.setStackWord (s : State) (key : Nat) (g : Group) (n : Nat) (x : Word) : Option State :=
  let pos := n / 8
  if g.depth ≤ pos then none
  else if g.spill ≤ pos then
    (g.stack[g.depth - 1 - pos]?).map (fun e =>
      let b := e.bytes.take (4 * (n % 8)) ++ leBytes x.toNat 4 ++ e.bytes.drop (4 * (n % 8) + 4)
      s.setGroup key { g with stack := g.stack.set (g.depth - 1 - pos) (stackEntryOf b) })
  else match s.stackArea g with
    | none => none
    | some a => match s.ctx0Write (s.core g.core).part (a + BitVec.ofNat 64 (4 * n)) (leBytes x.toNat 4) with
      | .ok s' => some s'
      | .error _ => none
/-- The words of a group record that exist now (R303): those of its registers up to the allotment. -/
def Group.hasWord (g : Group) (n : Nat) : Bool := n < 704 + g.allot || (960 ≤ n && n < 1024 + 32 * g.allot)

/-! ## The block record (R313) -/

/-- The operations of a block on its core, of one class, in issue order. -/
def State.blockOps (s : State) (bn : Nat) (b : Block) (gather : Bool) : List EngineOp :=
  (s.core b.core).ops.filter (fun o => o.blk == some bn && o.gather == gather)
/-- Word n of the block header as a swap-out would lay it out now. -/
def State.blockHeadWord (s : State) (bn : Nat) (b : Block) (n : Nat) : Word :=
  let roles := s.rolesOf b
  let bar (i : Nat) : Word := match aget? i b.bars with
    | some x => BitVec.ofNat 32 (x.arrivals % 64 + 256 * (x.e % 64) + (if x.cnt then 65536 else 0))
    | none => 0
  let half (x : DWord) (k : Nat) : Word := if k % 2 = 0 then lo32 x else hi32 x
  match n with
  | 0 => 0x4C424B31
  | 1 => BitVec.ofNat 32 (1 + 65536 * (b.ngroup % 256) + 2 ^ 24 * (b.ntbar % 256))
  | 2 => lo32 (BitVec.ofNat 64 b.seq)
  | 3 => hi32 (BitVec.ofNat 64 b.seq)
  | 4 => BitVec.ofNat 32 b.linear
  | 5 => BitVec.ofNat 32 (1 + (if b.stopped then 2 else 0) + (if b.gang then 4 else 0))
  | 6 => BitVec.ofNat 32 b.localSize
  | 7 => BitVec.ofNat 32 b.stashSize
  | 8 => BitVec.ofNat 32 (recSize roles b.localSize)
  | 10 => BitVec.ofNat 32 (localOff roles)
  | 11 => BitVec.ofNat 32 (engOff roles b.localSize)
  | 12 => BitVec.ofNat 32 ((s.blockOps bn b false).length + 65536 * (s.blockOps bn b true).length)
  | 14 => BitVec.ofNat 32 b.gangArrived
  | 15 => if b.gangPhase then 1 else 0
  | n =>
    if 16 ≤ n ∧ n < 48 then (if n % 2 = 0 then bar ((n - 16) / 2) else 0)
    else if 48 ≤ n ∧ n < 176 then half (aval 0 ((n - 48) / 2) b.tbars) n
    else if 256 ≤ n ∧ n < 640 then
      match aget? ((n - 256) / 2) b.stash with
      | some g => half (canon57 g.page ||| (if g.w then 3 else 1)) n
      | none => 0
    else 0
/-- STATE of a saved engine record (R206, R210): a failed one stays failed, and every other one is saved running; one that only
awaits its turn to be reported has nothing left to move. -/
def EngineOp.saved (o : EngineOp) : EngineOp :=
  if o.state = 3 then o
  else { o with state := 1, faddr := 0, freason := 0, fcode := 0, done := if o.complete then o.len else o.done }
/-- Word n of the engine records. -/
def State.engWord (s : State) (bn : Nat) (b : Block) (n : Nat) : Word :=
  let i := n / 32
  let o := if i < 1024 then (s.blockOps bn b false)[i]? else (s.blockOps bn b true)[i - 1024]?
  match o with
  | some o => BitVec.ofNat 32 (leNat ((o.saved.bytes.drop (4 * (n % 32))).take 4))
  | none => 0
/-- The group of a block in whose record word n of the block's record lies, with the word's number there (R313). -/
def State.groupAt (s : State) (b : Block) (n : Nat) : Option (Nat × Nat) :=
  let roles := s.rolesOf b
  ((List.range b.ngroup).find? (fun g =>
    groupRecOff roles g ≤ 4 * n && 4 * n < groupRecOff roles g + groupRecSize (s.roleOf b g))).map
      (fun g => (g, n - groupRecOff roles g / 4))
/-- The words of a block's record that exist now (R303): in a group's record those that the group's has. -/
def State.blockHasWord (s : State) (bn : Nat) (b : Block) (n : Nat) : Bool :=
  decide (4 * n < recSize (s.rolesOf b) b.localSize) && (match s.groupAt b n with
    | some (g, m) => (s.group? (groupKey bn g)).all (fun x => x.hasWord m)
    | none => true)
/-- Word n of a block's record as a swap-out would lay it out now; none where the record holds no specified word: a stack word
where no entry stands, and a register beyond the allotment. -/
def State.blockWordAt (s : State) (bn : Nat) (b : Block) (n : Nat) : Option Word :=
  let roles := s.rolesOf b
  let l := localOff roles / 4
  let e := engOff roles b.localSize / 4
  if n < 1024 then some (s.blockHeadWord bn b n)
  else if n < l then
    match s.groupAt b n with
    | none => some 0
    | some (g, m) => match s.group? (groupKey bn g) with
      | none => none
      | some x => if x.hasWord m then s.groupWordAt x m else none
  else if n < e then some (BitVec.ofNat 32 (leNat ((List.range 4).map (fun k => aval 0 (4 * (n - l) + k) b.loc))))
  else some (s.engWord bn b (n - e))

/-! ## Saving -/

/-- Consecutive words of a record written at a context 0 address; a part that context 0 does not map is lost (DESIGN CHOICE, log 24). -/
def State.saveWords (s : State) (part : Nat) (a : DWord) (from' n : Nat) (f : Nat → Option Word) : State :=
  match s.ctx0Write part (a + BitVec.ofNat 64 (4 * from'))
      ((List.range n).flatMap (fun k => leBytes ((f (from' + k)).getD 0).toNat 4)) with
  | .ok s' => s'
  | .error _ => s
/-- The sectors of a saved area that hold poison (R315): their numbers from the area's start. -/
def State.savePoison (s : State) (part : Nat) (a : DWord) (sectors : List Nat) : State :=
  sectors.foldl (fun s q => match s.ctx0Addr part (a + BitVec.ofNat 64 (64 * q)) true with
    | .ok pa => { s with memPoison := setAdd (pa / 64) s.memPoison }
    | .error _ => s) s
/-- A group saved up to its current allotment. -/
def State.saveGroup (s : State) (part : Nat) (a : DWord) (g : Group) : State :=
  let f := s.groupWordAt g
  let s1 := s.saveWords part a 0 192 f
  let s2 := s1.saveWords part a 192 (8 * g.depth) f
  let s3 := s2.saveWords part a 704 320 f
  s3.saveWords part a 1024 (32 * g.allot) f
/-- The block's record written (R308 step 6). -/
def State.saveBlock (s : State) (bn : Nat) (b : Block) : State :=
  let roles := s.rolesOf b
  let f := s.blockWordAt bn b
  let e := engOff roles b.localSize
  let s1 := s.saveWords b.part b.recAddr 0 1024 f
  let s2 := (List.range b.ngroup).foldl (fun s i => match s.group? (groupKey bn i) with
    | some g => s.saveGroup b.part (b.recAddr + BitVec.ofNat 64 (groupRecOff roles i)) g
    | none => s) s1
  let s3 := s2.saveWords b.part b.recAddr (localOff roles / 4) (b.localSize / 4) f
  let s4 := s3.savePoison b.part (b.recAddr + BitVec.ofNat 64 (localOff roles)) b.locPoison
  let s5 := s4.saveWords b.part b.recAddr (e / 4) 40960 f
  s5.savePoison b.part (b.recAddr + BitVec.ofNat 64 e)
    ((List.range 1024).filterMap (fun i => ((s.blockOps bn b false)[i]?).bind (fun o => if o.patPoison then some (2 * i) else none)))

/-! ## Restoring -/

/-- A record in memory: its bytes and the poison of its sectors, at a context 0 address. -/
structure Image where
  part : Nat
  at' : DWord
deriving DecidableEq, Repr
/-- n bytes of a record; a part that context 0 does not map reads as zeros. -/
def State.imgNat (s : State) (i : Image) (off n : Nat) : Nat :=
  match s.ctx0Nat i.part (i.at' + BitVec.ofNat 64 off) n with
  | .ok x => x
  | .error _ => 0
/-- Whether n bytes of a record touch a poisoned sector. -/
def State.imgPoison (s : State) (i : Image) (off n : Nat) : Bool :=
  match s.ctx0Addr i.part (i.at' + BitVec.ofNat 64 off) false with
  | .ok pa => s.physPoison pa n
  | .error _ => false
/-- What a restored WAIT stands for: the wait that the group had, or the word again. -/
def waitOf (code : Nat) (old : Option Wait) : Wait :=
  match old with
  | some w => if w.code = code then w else if code = 0 then .none else if code = 7 then .sleep else .again code
  | none => if code = 0 then .none else if code = 7 then .sleep else .again code
/-- A group from its record (R309, R314, R315), at the normal hint level (R54): a register that lies in a poisoned sector comes back poisoned. -/
def State.loadGroup (s : State) (i : Image) (core bn gid role : Nat) (old : Option Replay) : Group :=
  let h (o n : Nat) : Nat := s.imgNat i o n
  let w (o : Nat) : Word := BitVec.ofNat 32 (h o 4)
  let d (o : Nat) : DWord := BitVec.ofNat 64 (h o 8)
  let allot := 8 * h 0x1F 1
  let depth := h 0x1D 1
  let spill := h 0x1E 1
  let st := h 0x4E 1
  let s1 := h 0x1C 1
  let vs := (List.range allot).flatMap (fun k => (List.range 32).map (fun l => (vkey k l, w (0x1000 + 128 * k + 4 * l))))
  let pbytes := (List.range 32).map (fun l => h (0x200 + l) 1)
  let bad (k : Nat) : Mask := if s.imgPoison i (0x1000 + 128 * k) 64 then 0xFFFF#32 else 0
  let bad2 (k : Nat) : Mask := if s.imgPoison i (0x1040 + 128 * k) 64 then 0xFFFF0000#32 else 0
  let sbad := (List.range 64).foldl (fun m k => if s.imgPoison i (0x100 + 4 * k) 4 then m ||| (1#64 <<< k) else m) (0 : DWord)
  { core, blk := some bn, gid, role, allot,
    v := vs.filter (fun q => q.2 != 0),
    s := ((List.range 64).map (fun k => (k, w (0x100 + 4 * k)))).filter (fun q => q.2 != 0),
    p := ((List.range 7).map (fun k => (k, maskOf (fun l => (pbytes.getD l 0) / 2 ^ k % 2 == 1)))).filter (fun q => q.2 != 0),
    vPoison := ((List.range allot).map (fun k => (k, w (0xB00 + 4 * k) ||| bad k ||| bad2 k))).filter (fun q => q.2 != 0),
    sPoison := d 0x220 ||| sbad,
    live := w 0x18, pc0 := d 0, mask0 := w 0x10, pc1 := d 8, mask1 := w 0x14, held := BitVec.ofNat 5 (s1 / 2), run1 := s1 % 2 == 1,
    stack := (List.range (depth - spill)).map (fun k =>
      stackEntryOf (leBytes (h (0x300 + 32 * (depth - 1 - k)) 32) 32)),
    depth, spill, fpflags := w 0x20, fpmode := w 0x24, arithmode := w 0x28, ccopy := h 0x2C 2, cgath := h 0x2E 2,
    icopy := (old.map Replay.icopy).getD 0, igath := (old.map Replay.igath).getD 0,
    tmask := d 0x30, entrypc := d 0x38, spc := d 0x40, smask := w 0x48, inEntry := h 0x4C 1 % 2 == 1, arr := h 0x4C 1 / 2 % 2 == 1,
    arrWait := if h 0x4C 1 / 2 % 2 = 1 then (old.map Replay.arrWait).getD .none else .none,
    sdepth := h 0x4D 1, state := if st = 1 then .ended else if st = 2 then .moored else .running,
    wait := waitOf (h 0x4F 1) (old.map Replay.wait), wake := d 0x50, hint := false, young := false,
    trap := { cause := h 0x5C 4 % 32, w0 := w 0x60, w1 := w 0x64, w2 := w 0x68, lanes := w 0x6C, unfin := w 0x7C },
    trapVpc := d 0x70, trapSlot := h 0x78 4 == 1,
    failrec := ((List.range 128).map (fun k => (k, BitVec.ofNat 8 (h (0x80 + k) 1)))).filter (fun q => q.2 != 0),
    parked := st == 2, retry0 := (old.map Replay.retry0).getD Retry.none, retry1 := (old.map Replay.retry1).getD Retry.none,
    sretry := (old.map Replay.sretry).getD Retry.none,
    pend0 := old.bind Replay.pend0, pend1 := old.bind Replay.pend1, settle1 := false, pos := none }
/-- What a group keeps beside its record, with its operations on the core. -/
def State.replayOf (b : Block) (g : Group) (ops : List EngineOp) : Replay :=
  { retry0 := g.retry0, retry1 := g.retry1, sretry := g.sretry, pend0 := g.pend0, pend1 := g.pend1, icopy := g.icopy, igath := g.igath, wait := g.wait, arrWait := g.arrWait,
    sys := aget? g.gid b.sysArrived, sysBad := b.sysBad.contains g.gid,
    fails := (ops.filter (fun o => o.blk == g.blk && o.owner == g.gid && o.state == 3)).map (fun o => (o.gather, (o.seq, o.failAge))) }
/-- An operation from its record (R206), without its number. -/
def opOfRec (bn : Nat) (gather : Bool) (l : List Byte) (poison : Bool) : EngineOp :=
  let f (o n : Nat) : Nat := leNat ((l.drop o).take n)
  let w (o : Nat) : Word := BitVec.ofNat 32 (f o 4)
  { id := 0, blk := some bn, gather, dst := BitVec.ofNat 64 (f 0 8), src := BitVec.ofNat 64 (f 8 8), len := f 0x10 4,
    done := f 0x14 4, kind := f 0x18 1, state := f 0x19 1, tb := if f 0x1A 1 = 255 then none else some (f 0x1A 1),
    owner := f 0x1B 1 % 32, xop := BitVec.ofNat 9 (f 0x1C 2), seq := f 0x1E 2, faddr := BitVec.ofNat 64 (f 0x20 8),
    freason := f 0x28 1, fcode := f 0x29 1, coord := (List.range 5).map (fun k => w (0x2C + 4 * k)),
    param := (List.range 16).map (fun k => w (0x40 + 4 * k)), slot := none, patPoison := poison, complete := false,
    reported := false, pend := Pend.empty, failAge := 0 }
/-- Whether a restored record is invalid (R206). A KIND of the other class than the record's place counts as one that the place can not hold
(DESIGN CHOICE, log 68: the rule's list does not name it). -/
def recBad (ntbar : Nat) (o : EngineOp) : Bool :=
  let par (k : Nat) : Nat := (o.param.getD k 0).toNat
  o.kind == 0 || 5 < o.kind || 4 < o.state || o.state == 0 || o.len < o.done || (o.tb.any (fun t => ntbar ≤ t)) ||
    (o.kind == 2 && tileBad par) || (4 ≤ o.kind && gatherBad par) || (o.gather != (4 ≤ o.kind))
/-- The operations of one class that a block record holds, in issue order, ready to take slots (R210). -/
def State.loadOps (s : State) (i : Image) (off n bn ntbar : Nat) (gather : Bool) : List EngineOp :=
  (List.range n).map (fun k =>
    let a := off + 128 * k
    let o := opOfRec bn gather (leBytes (s.imgNat i a 128) 128) (s.imgPoison i a 64)
    if recBad ntbar o then { o with state := 3, freason := 6, fcode := 0 }
    else if o.state = 3 then o
    else { o with state := 4 })

end Sys2Proof.Machine
end

