-- ==== Sys2Proof/Machine/Distributor.lean ====
section
/-! DEFINITION. The distributor (R235 to R249, R256, R257): launch records, admission and its fit, return lists, gangs, swap-out
and swap-in of blocks (R308, R309), the retirement of blocks and grids (R88, R239), displacement and pre-emption. -/
namespace Sys2Proof.Machine

/-! ## What fits (R20, R245, R246, R392) -/

/-- What a block takes of a core: groups, registers, need, local store window, transaction barriers. -/
structure Load where
  groups : Nat
  regs : Nat
  need : Nat
  win : Nat
  tbars : Nat
deriving DecidableEq, Repr
/-- The registers that a group may still grow by (R245). -/
def State.groupNeed (s : State) (b : Block) (g : Group) : Nat := 32 * (8 * (s.roleOf b g.gid).fgran - g.allot)
/-- The groups of a block that have not ended. -/
def State.liveOf (s : State) (bn : Nat) : List Group := (s.liveGroups bn).filterMap s.group?
/-- The need of a resident block (R245). -/
def State.need (s : State) (bn : Nat) (b : Block) : Nat := ((s.liveOf bn).map (s.groupNeed b)).sum
/-- What a resident block takes. -/
def State.blockLoad (s : State) (bn : Nat) (b : Block) : Load :=
  { groups := (s.liveOf bn).length, regs := ((s.liveOf bn).map (fun g => 32 * g.allot)).sum, need := s.need bn b,
    win := b.localSize + b.stashSize, tbars := b.ntbar }
/-- What a block of a grid takes at its first admission. -/
def Grid.firstLoad (g : Grid) : Load :=
  { groups := (g.roles.map Role.ngrp).sum, regs := (g.roles.map (fun r => r.ngrp * 256 * r.pgran)).sum,
    need := (g.roles.map (fun r => r.ngrp * 256 * (r.fgran - r.pgran))).sum, win := g.localSize + g.stashSize, tbars := g.ntbar }
/-- What a block on a return list takes again. -/
def Swapped.load (x : Swapped) (g : Grid) : Load :=
  { groups := x.liveGroups, regs := x.regs, need := x.need, win := g.localSize + g.stashSize, tbars := g.ntbar }
/-- The grid with a number. -/
def State.grid? (s : State) (part seq : Nat) : Option Grid := aget? (gridKey part seq) s.grids
/-- Whether a grid of a partition, named by a sequence number, has retired. -/
def State.retiredGrid (s : State) (part seq : Nat) : Bool := !((s.grid? part seq).map Grid.live).getD false
/-- Whether a return-list entry is eligible (R243): not held back until CONT, and not every group of it waits for a child. -/
def State.eligibleEntry (s : State) (g : Grid) (x : Swapped) : Bool :=
  !x.held && (x.waits.isEmpty || !x.waits.all (fun l => l.any (fun q => !s.retiredGrid g.part q)))
/-- Whether a claimed block of a grid has retired: it is neither resident, nor promised to a core, nor on the return list. -/
def State.blockGone (s : State) (g : Grid) (linear : Nat) : Bool :=
  decide (linear < g.claimed) && !g.returns.any (fun x => x.linear == linear) &&
    !s.blocks.any (fun e => e.2.part == g.part && e.2.seq == g.seq && e.2.linear == linear) &&
    !s.cores.any (fun e => e.2.reserve.any (fun r => r.2.part == g.part && r.2.seq == g.seq && r.2.entry.linear == linear))
/-- The entries of gang n on a grid's return list, in ascending linear id. -/
def Grid.gangEntries (g : Grid) (n : Nat) : List Swapped :=
  (List.range g.gang).filterMap (fun i => g.returns.find? (fun x => x.linear == n * g.gang + i))
/-- Whether gang n may be readmitted as a whole (R243, R244): every member that has not retired is on the return list, none is held back,
and one of them is eligible (DEDUCED, log 60: the gang moves only as a whole). -/
def State.gangWhole (s : State) (g : Grid) (n : Nat) : Bool :=
  let l := g.gangEntries n
  (List.range g.gang).all (fun i => l.any (fun x => x.linear == n * g.gang + i) || s.blockGone g (n * g.gang + i)) &&
    l.all (fun x => !x.held) && l.any (s.eligibleEntry g)
/-- The gang that a grid admits next: the first returned one in list order, with its entries, or a fresh one. -/
def State.gangPick (s : State) (g : Grid) : Option (Nat × Option (List Swapped)) :=
  match (g.returns.map (fun x => x.linear / g.gang)).find? (s.gangWhole g) with
  | some n => some (n, some (g.gangEntries n))
  | none => if g.claimed < g.nbx * g.nby * g.nbz && !g.killed then some (g.claimed / g.gang, none) else none
/-- What the members of the gang that a grid admits next take. -/
def State.gangLoads (s : State) (g : Grid) : List Load :=
  match s.gangPick g with
  | some (_, some l) => l.map (fun x => x.load g)
  | some (_, none) => List.replicate g.gang g.firstLoad
  | none => []
/-- The larger of two loads in every part: the room that an enlisted core keeps for whichever member it gets. -/
def Load.max (a b : Load) : Load :=
  { groups := Nat.max a.groups b.groups, regs := Nat.max a.regs b.regs, need := Nat.max a.need b.need, win := Nat.max a.win b.win,
    tbars := Nat.max a.tbars b.tbars }
/-- The room that one core needs to be enlisted (R244). -/
def State.gangRoom (s : State) (g : Grid) : Load := (s.gangLoads g).foldl Load.max { groups := 0, regs := 0, need := 0, win := 0, tbars := 0 }
/-- What stands on a core: resident blocks, reservations and enlistments. -/
def State.loads (s : State) (c : Nat) : List Load :=
  (s.blocksOn c).filterMap (fun bn => (aget? bn s.blocks).map (s.blockLoad bn)) ++
    (s.core c).reserve.filterMap (fun e => (s.grid? e.2.part e.2.seq).map e.2.entry.load) ++
    ((s.part (s.core c).part).enlists.filter (fun x => x.cores.contains c)).filterMap (fun x =>
      (s.grid? (s.core c).part x.seq).map s.gangRoom)
/-- Whether loads fit on one core together (R20, R246), under a SCALE. -/
def loadsFit (scale : Nat) (l : List Load) : Bool :=
  let m := (l.map Load.need).foldl max 0
  let regs := (l.map Load.regs).sum
  (l.map Load.groups).sum ≤ 64 && (l.map Load.win).sum ≤ 0x100000 && (l.map Load.tbars).sum ≤ 64 && regs ≤ 131072 &&
    (scale * m + 3) / 4 ≤ 131072 - regs
/-- The estimate of a power class in tenths of a watt (R392). -/
def classWatts (k : Nat) : Nat := [40, 60, 80, 97].getD k 97
/-- The class of a core: the highest PWR of its resident blocks. -/
def State.coreClass (s : State) (c : Nat) : Option Nat :=
  ((s.blocks.filter (fun e => e.2.core == c)).filterMap (fun e => (s.gridOf e.2).map Grid.pwr)).foldl
    (fun o x => some (match o with | none => x | some y => max x y)) none
/-- Whether the section's budget lets a core take a class (R392): the sum is kept within 0.7 of the cap over 12 sections. -/
def State.budgetOk (s : State) (c pwr : Nat) : Bool :=
  let cores := (List.range 12).map (fun k => 12 * (c / 12) + k)
  let sum := (cores.map (fun d =>
    if d = c then classWatts (max ((s.coreClass c).getD 0) pwr) else ((s.coreClass d).map classWatts).getD 0)).sum
  12 * sum ≤ 7 * s.powerCap

/-! ## Records in the ballast area (R307) -/

/-- The ballast ranges that the blocks of a context hold: offset and size. -/
def State.ballastOf (s : State) (ctxid : BitVec 16) : List (Nat × Nat) :=
  (s.ballast.filter (fun e => ((aget? (e.1 / 2 ^ 32) s.grids).map Grid.ctxid) == some ctxid)).map Prod.snd
/-- The lowest place in a ballast area for a record of n bytes (DESIGN CHOICE, log 23). -/
def ballastPlace (l : List (Nat × Nat)) (size n : Nat) : Option Nat :=
  let free (o : Nat) : Bool := o + n ≤ size && l.all (fun r => o + n ≤ r.1 || r.1 + r.2 ≤ o)
  ((0 :: l.map (fun r => r.1 + r.2)).filter free).foldl (fun a x => some (match a with | none => x | some y => min x y)) none

/-- Whether the area holds n more records of a size, each in a place of its own. -/
def ballastRoom (l : List (Nat × Nat)) (bsize size : Nat) : Nat → Bool
  | 0 => true
  | n + 1 => match ballastPlace l bsize size with
    | none => false
    | some o => ballastRoom ((o, size) :: l) bsize size n

/-! ## Admission (R238, R240 to R244) -/

/-- A free block slot of a core: the numbers of R301. -/
def State.freeBlockSlot (s : State) (c : Nat) : Nat :=
  let used := (s.blocks.filter (fun e => e.2.core == c)).map (fun e => e.2.slot) ++ (s.core c).reserve.map (fun e => e.2.slot)
  ((List.range 64).find? (fun n => !used.contains n)).getD 0
/-- The lowest free group position of a core, which decides its quarter (R259; DESIGN CHOICE, log 61: any free position is allowed). -/
def State.freePos (s : State) (c : Nat) : Option Nat :=
  (List.range 64).find? (fun n => !s.groups.any (fun e => e.2.core == c && e.2.pos == some n))
/-- A group takes its place on its core. -/
def State.placeGroup (s : State) (key : Nat) (g : Group) : State :=
  s.setGroup key { g with pos := if g.state = .ended then none else s.freePos g.core }
/-- A block admitted for the first time (R238, R307): its record, its groups at their entries, and the core refreshed. -/
def State.admitBlock (s : State) (c : Nat) (g : Grid) (d : Desc) (linear : Nat) : State :=
  let size := recSize g.roles g.localSize
  let off := (ballastPlace (s.ballastOf g.ctxid) d.bsize size).getD 0
  let bn := s.nextBlk
  let roles := rolesByGid g.roles
  let b : Block :=
    { core := c, slot := s.freeBlockSlot c, part := g.part, seq := g.seq, linear, ctxid := g.ctxid, asid := g.asid,
      recAddr := d.ballast + BitVec.ofNat 64 off, ngroup := roles.length, ntbar := g.ntbar, localSize := g.localSize,
      stashSize := g.stashSize, gang := g.gang != 0, age := (s.core c).admitSeq, loc := [], locPoison := [], stash := [],
      stashFilled := [], bars := [], sysArrived := [], sysBad := [], tbars := [], gangArrived := 0, gangPhase := false, quadR := [], bins := [],
      stopped := false, lost := none, behind := none }
  let s1 := ({ s with blocks := aput bn b s.blocks, nextBlk := bn + 1,
                      ballast := aput (recKey g.part g.seq linear) (off, size) s.ballast }).modCore c
    (fun k => { k with admitSeq := k.admitSeq + 1 })
  let first (gid : Nat) : Nat := ((List.range gid).filter (fun j => (roles.getD j (0, noRole)).1 == (roles.getD gid (0, noRole)).1)).length
  let s2 := (List.range roles.length).foldl (fun s gid =>
    let r := roles.getD gid (0, noRole)
    let x := (((Group.fresh c (some bn) gid r.1 (8 * r.2.pgran) (BitVec.allOnes 32) r.2.entry).setS64 0 g.arg false).setS 2
      (BitVec.ofNat 32 (first gid)) false).setS 3 (BitVec.ofNat 32 linear) false
    s.placeGroup (groupKey bn gid) x) s1
  ((s2.modGrid g.part g.seq (fun x => { x with stamp := s.tick })).acquire c 2).dropRo c
/-- A block of a return list promised to a core (R309): its resources are reserved, and a KIND 5 notice is posted. -/
def State.readmit (s : State) (c : Nat) (g : Grid) (x : Swapped) : State :=
  let bn := s.nextBlk
  let slot := s.freeBlockSlot c
  let s1 := ({ s with nextBlk := bn + 1 }).modCore c (fun k =>
    { k with reserve := aput bn { part := g.part, seq := g.seq, slot, entry := x } k.reserve })
  let s2 := s1.modGrid g.part g.seq (fun h => { h with returns := h.returns.filter (fun y => y.linear != x.linear), stamp := s.tick })
  s2.postNotice c { kind := 5, popped := false, order := 0, slot, ctxid := g.ctxid, info := 0, seq := g.seq, linear := x.linear,
                    addr := x.recAddr, blk := some bn }
/-- The number of blocks of a grid. -/
def Grid.blocks (g : Grid) : Nat := g.nbx * g.nby * g.nbz
/-- Whether a grid is ready (R241). -/
def State.ready (s : State) (g : Grid) : Bool :=
  g.live && !g.killed && g.deps.all (s.retiredGrid g.part) && (!g.returns.isEmpty || g.claimed < g.blocks)
/-- The largest number, up to n, of next blocks of a grid that fit a core together (R241, R246, R307). -/
def State.fitCount (n : Nat) (loads : List Load) (scale : Nat) (g : Grid) (bsize : Nat) (ranges : List (Nat × Nat)) : Nat :=
  match n with
  | 0 => 0
  | n + 1 =>
    let size := recSize g.roles g.localSize
    if !loadsFit scale (g.firstLoad :: loads) then 0
    else match ballastPlace ranges bsize size with
      | none => 0
      | some o => 1 + State.fitCount n (g.firstLoad :: loads) scale g bsize ((o, size) :: ranges)
/-- A gang admitted or readmitted, its members on enlisted cores in ascending order (R244). -/
def State.admitGang (s : State) (g : Grid) (cores : List Nat) : State :=
  match s.gangPick g with
  | none => s
  | some (_, some l) => (cores.zip l).foldl (fun s q => s.readmit q.1 g q.2) s
  | some (n, none) =>
    let s1 := (List.range g.gang).foldl (fun s i =>
      match s.desc (cores.getD i 0) g.ctxid with
      | some d => s.admitBlock (cores.getD i 0) g d (n * g.gang + i)
      | none => s) s
    s1.modGrid g.part g.seq (fun x => { x with claimed := x.claimed + g.gang })
/-- Whether a core can admit what the grid's next gang needs of it (R14, R20, R244): it is healthy, its table holds the live context, and
the room fits. -/
def State.gangFits (s : State) (g : Grid) (c : Nat) : Bool :=
  (s.core c).enabled && !(s.core c).fenced && (s.desc c g.ctxid).any (fun d => !s.bars g.ctxid d) &&
    loadsFit (s.core c).scale (s.gangRoom g :: s.loads c)
/-- A core enlisted for a grid's gang (R244): once enough cores that can still admit a member are enlisted, the gang is admitted. -/
def State.enlist (s : State) (c : Nat) (g : Grid) : State :=
  let p := s.part g.part
  let e := (p.enlists.find? (fun x => x.seq == g.seq)).getD { seq := g.seq, cores := [], since := s.tick }
  let rest := p.enlists.filter (fun x => x.seq != g.seq)
  let s0 := s.modPart g.part (fun p => { p with enlists := rest })
  let cores := (setAdd c e.cores).filter (s0.gangFits g)
  let n := (s.gangLoads g).length
  if n ≤ cores.length then s0.admitGang g (cores.take n)
  else s.modPart g.part (fun p => { p with enlists := rest ++ [{ e with cores }] })
/-- What the distributor answers a core from one grid (R241): none where it goes on to the next grid, and else the state after a readmission,
an enlistment or a claim. A gang that stands to be admitted ends the answer, though the core be enlisted already or has no room for a member
now (R244). -/
def State.offer (s : State) (c : Nat) (g : Grid) : Option (Option State) :=
  let k := s.core c
  if !s.ready g then none
  else if k.hold.any (fun h => decide (g.prio < h.2)) then none
  else if !s.budgetOk c g.pwr then none
  else match s.desc c g.ctxid with
    | none => none
    | some d =>
      if s.bars g.ctxid d then none
      else if g.gang ≠ 0 then
        (s.gangPick g).map (fun q =>
          let listed := (s.part g.part).enlists.any (fun x => x.seq == g.seq && x.cores.contains c)
          let room := q.2.isSome || ballastRoom (s.ballastOf g.ctxid) d.bsize (recSize g.roles g.localSize) g.gang
          if listed || !s.gangFits g c || !room then none else some (s.enlist c g))
      else match g.returns.find? (fun x => s.eligibleEntry g x && loadsFit k.scale (x.load g :: s.loads c)) with
        | some x => some (some (s.readmit c g x))
        | none =>
          let most := if g.ord then (if g.returns.isEmpty then 1 else 0) else 64
          let n := State.fitCount (min most (g.blocks - g.claimed)) (s.loads c) k.scale g d.bsize (s.ballastOf g.ctxid)
          if n = 0 then none
          else
            let s1 := s.modGrid g.part g.seq (fun x => { x with claimed := x.claimed + n })
            some (some ((List.range n).foldl (fun s i => s.admitBlock c g d (g.claimed + i)) s1))
/-- The grids of a partition, highest priority class first, then ascending sequence number (R241). -/
def State.gridOrder (s : State) (part : Nat) : List Grid :=
  let l := (s.grids.filter (fun e => e.2.part == part && e.2.live)).map Prod.snd
  [7, 6, 5, 4, 3, 2, 1, 0].flatMap (fun p => l.filter (fun g => g.prio == p))
/-- Whether a core may ask for work (R241). -/
def State.mayAsk (s : State) (c : Nat) : Bool :=
  let k := s.core c
  k.enabled && !k.fenced && !k.vacating && k.regq.isEmpty && ((s.loads c).map Load.groups).sum < 64 && !(s.part k.part).resetting
/-- The distributor's answer to a core that asks for work (R241); none where it brings the core nothing now. -/
def State.answer (s : State) (c : Nat) : Option State :=
  if !s.mayAsk c then none else ((s.gridOrder (s.core c).part).findSome? (s.offer c)).join

/-! ## Launch records (R235 to R237) -/

/-- A field of a launch record. -/
def lrField (l : List Byte) (o n : Nat) : Nat := leNat ((l.drop o).take n)
/-- The roles of a launch record. -/
def lrRoles (l : List Byte) : List Role :=
  (List.range (min 4 (lrField l 4 1))).map (fun i =>
    { entry := BitVec.ofNat 64 (lrField l (0x40 + 16 * i) 8), ngrp := lrField l (0x48 + 16 * i) 1,
      pgran := lrField l (0x49 + 16 * i) 1, fgran := lrField l (0x4A + 16 * i) 1 })
/-- The dependences of a launch record. -/
def lrDeps (l : List Byte) : List Nat := (List.range (min 4 (lrField l 9 1))).map (fun i => lrField l (0xC0 + 8 * i) 8)
/-- Status RECORD: a version, a reserved field, a reserved flag or an unused entry. -/
def lrReserved (l : List Byte) : Bool :=
  let z (o n : Nat) : Bool := lrField l o n == 0
  lrField l 0 2 != 1 || lrField l 2 2 / 4 != 0 || !z 0x0A 6 || !z 0x1C 4 || !z 0x38 8 || !z 0xE0 32 ||
    !(List.range 4).all (fun i => z (0x4B + 16 * i) 5) ||
    !(List.range 4).all (fun i => i < lrField l 4 1 || z (0x40 + 16 * i) 16) ||
    !(List.range 4).all (fun i => i < lrField l 9 1 || z (0xC0 + 8 * i) 8)
/-- The live grids of a partition. -/
def State.liveGrids (s : State) (part : Nat) : List Grid := (s.grids.filter (fun e => e.2.part == part && e.2.live)).map Prod.snd
/-- The status of a launch record (R236): the checks in order. -/
def State.launchStatus (s : State) (part : Nat) (ctxid : BitVec 16) (d : Desc) (l : List Byte) (poison : Bool) : Nat :=
  let f := lrField l
  let roles := lrRoles l
  let nrole := f 4 1
  let gang := f 5 1
  let nb := f 0x10 4 * f 0x14 4 * f 0x18 4
  let ngrp := (roles.map Role.ngrp).sum
  if poison then 13
  else if lrReserved l then 1
  else if f 0x10 4 = 0 ∨ f 0x14 4 = 0 ∨ 65535 < f 0x14 4 ∨ f 0x18 4 = 0 ∨ 65535 < f 0x18 4 ∨ 2 ^ 32 - 1 < nb then 2
  else if nrole = 0 ∨ 4 < nrole ∨ 32 < ngrp ∨
      roles.any (fun r => r.ngrp == 0 || r.entry.toNat % 8 != 0 || !canonical r.entry) then 3
  else if roles.any (fun r => r.pgran == 0 || 32 < r.pgran || r.fgran < r.pgran || 32 < r.fgran) ∨
      131072 < (roles.map (fun r => r.ngrp * 256 * r.fgran)).sum then 4
  else if f 0x20 4 % 4096 ≠ 0 ∨ f 0x24 4 % 4096 ≠ 0 ∨ 0xC0000 < f 0x20 4 + f 0x24 4 then 5
  else if 64 < f 6 1 then 6
  else if (List.range 8).any (fun i => !slotValid (f (0x80 + 8 * i) 8)) then 7
  else if gang = 1 ∨ 16 < gang ∨ (gang ≠ 0 ∧ (nb % gang ≠ 0 ∨ (s.healthy part).length < gang)) then 8
  else if 3 < f 8 1 ∨ 7 < f 7 1 ∨ d.priolim < f 7 1 then 9
  else if 4 < f 9 1 ∨ (lrDeps l).any (fun q => q == 0 || (s.part part).nextSeq ≤ q ||
      ((s.grid? part q).any (fun g => g.live && g.ctxid != ctxid))) then 10
  else if (if f 2 2 / 2 % 2 = 1 then f 0x30 8 % 32 ≠ 0 ∨ !canonical (BitVec.ofNat 64 (f 0x30 8)) else f 0x30 8 ≠ 0) then 11
  else if 16384 ≤ (s.liveGrids part).length ∨ d.gridlim ≤ ((s.liveGrids part).filter (fun g => g.ctxid == ctxid)).length then 12
  else 0
/-- An accepted launch: the grid takes the partition's next sequence number (R237). -/
def State.createGrid (s : State) (part : Nat) (ctxid : BitVec 16) (d : Desc) (l : List Byte) (depth : Nat)
    (parent : Option (Nat × Nat × Nat)) : State × Nat :=
  let f := lrField l
  let q := (s.part part).nextSeq
  let g : Grid :=
    { part, seq := q, ctxid, asid := BitVec.ofNat 16 d.asid, depth, parent, collected := false, ord := f 2 2 % 2 == 1,
      crec := f 2 2 / 2 % 2 == 1, roles := lrRoles l, gang := f 5 1, ntbar := f 6 1, prio := f 7 1, pwr := f 8 1, deps := lrDeps l,
      nbx := f 0x10 4, nby := f 0x14 4, nbz := f 0x18 4, localSize := f 0x20 4, stashSize := f 0x24 4,
      arg := BitVec.ofNat 64 (f 0x28 8), craddr := BitVec.ofNat 64 (f 0x30 8),
      fs := (List.range 8).map (fun i => BitVec.ofNat 64 (f (0x80 + 8 * i) 8)), claimed := 0, returns := [], replays := [],
      retired := 0, live := true, killed := false, status := 0, nfail := 0, detail := 0, detailAge := 0, engrec := [], engAge := 0, stamp := s.tick }
  (({ s with grids := aput (gridKey part q) g s.grids }).modPart part (fun p => { p with nextSeq := q + 1 }), q)

/-! ## Swap-out (R308) -/

/-- Whether a slot's remote accesses are settled. -/
def Group.quiet (g : Group) : Bool := g.pend0.isNone && g.pend1.isNone
/-- Whether accesses of a block are in flight, or done and not yet taken by their word (R210, R308 steps 1 and 2). A parked group's other
slot takes what has come after its return. -/
def State.blockBusy (s : State) (bn : Nat) : Bool :=
  let out (p : Option Pend) : Bool := p.any (fun q => !q.waiting.isEmpty)
  (s.liveOf bn).any (fun g => if g.parked then out g.pend0 || out g.pend1 else !g.quiet) ||
    ((aget? bn s.blocks).map (fun b => (s.core b.core).ops)).any (fun l => l.any (fun o => o.blk == some bn && !o.pend.waiting.isEmpty))
/-- Whether the supervisor holds the popped entry of a group of the block (R293). -/
def State.heldHandle (s : State) (c bn : Nat) : Bool :=
  (s.core c).mq.any (fun e => e.2.kind == 1 && e.2.popped && e.2.blk == some bn)
/-- The children of a group that a CWAIT in progress waits for. -/
def cwaitsOf (g : Group) : List Nat := match g.wait with
  | .cwait l => l
  | _ => []
/-- A resident block and all that belongs to it leave the core. -/
def State.dropBlock (s : State) (bn : Nat) (b : Block) : State :=
  let s1 := { s with groups := s.groups.filter (fun e => e.2.blk != some bn), blocks := adel bn s.blocks }
  (s1.modCore b.core (fun k =>
    { k with vacating := k.vacating && s1.blocks.any (fun e => e.2.core == b.core),
             mq := k.mq.filter (fun e => !((e.2.kind == 1 || e.2.kind == 2) && e.2.blk == some bn)),
             ops := k.ops.filter (fun o => o.blk != some bn), regq := k.regq.filter (fun q => (q.1 - 256) / 32 != bn || q.1 < 256),
             slotq := k.slotq.filter (fun q => q.2 < 256 || (q.2 - 256) / 32 != bn) })).drainMoor b.core
/-- Steps 3 to 7 of R308, once the block's accesses are settled and its publish has ended. -/
def State.swapOut (s : State) (bn : Nat) (b : Block) (mode : Nat) : State :=
  if mode = 2 then
    let s1 := (s.retireBlockEps b).dropBlock bn b
    ({ s1 with ballast := adel (recKey b.part b.seq b.linear) s1.ballast }).modGrid b.part b.seq
      (fun g => { g with retired := g.retired + 1 })
  else
    let s0 := s.modBlock bn (fun k => { k with stopped := mode == 1, stashFilled := [] })
    let b0 := { b with stopped := mode == 1, stashFilled := [] }
    let ld := s0.blockLoad bn b0
    let live := s0.liveOf bn
    let x : Swapped :=
      { linear := b.linear, recAddr := b.recAddr, liveGroups := ld.groups, regs := ld.regs, need := ld.need,
        waits := live.map cwaitsOf, held := mode == 1, since := s.tick, woken := false, behind := b.behind }
    let keep := s0.groups.filterMap (fun e => if e.2.blk == some bn then some (b.linear, (e.2.gid, State.replayOf b e.2 (s0.core b.core).ops)) else none)
    ((s0.saveBlock bn b0).dropBlock bn b0).modGrid b.part b.seq (fun g =>
      { g with returns := insertReturn x g.returns, replays := g.replays.filter (fun r => r.1 != b.linear) ++ keep })

/-! ## Swap-in (R309) -/

/-- A block from its record's header, at a core and a slot. -/
def State.loadBlock (s : State) (i : Image) (c slot : Nat) (g : Grid) (linear : Nat) (stopped : Bool) : Block :=
  let h (o n : Nat) : Nat := s.imgNat i o n
  let lo := localOff g.roles
  { core := c, slot, part := g.part, seq := g.seq, linear, ctxid := g.ctxid, asid := g.asid, recAddr := i.at',
    ngroup := (g.roles.map Role.ngrp).sum, ntbar := g.ntbar, localSize := g.localSize, stashSize := g.stashSize, gang := g.gang != 0,
    age := (s.core c).admitSeq,
    loc := ((List.range g.localSize).map (fun k => (k, BitVec.ofNat 8 (h (lo + k) 1)))).filter (fun q => q.2 != 0),
    locPoison := (List.range (g.localSize / 64)).filter (fun q => s.imgPoison i (lo + 64 * q) 64),
    stash := (List.range (g.stashSize / 4096)).filterMap (fun k =>
      let e := h (0x400 + 8 * k) 8
      if e % 2 = 1 then some (k, { page := e / 4096 * 4096 % 2 ^ 57, w := e / 2 % 2 == 1 }) else none),
    stashFilled := [],
    bars := (List.range 16).filterMap (fun k =>
      let e := h (0x40 + 8 * k) 8
      if e % 64 = 0 then none else some (k, { arrivals := e % 64, e := e / 256 % 64, cnt := e / 65536 % 2 == 1 })),
    sysArrived := [], sysBad := [],
    tbars := ((List.range g.ntbar).map (fun k => (k, BitVec.ofNat 64 (h (0xC0 + 8 * k) 8)))).filter (fun q => q.2 != 0),
    gangArrived := h 0x38 4, gangPhase := h 0x3C 1 % 2 == 1, quadR := [], bins := [], stopped, lost := none, behind := none }
/-- The failed operations of a group and class that had been reported before the save: those that its counter no longer counts. -/
def markReported (g : Group) (gather : Bool) (l : List EngineOp) : List EngineOp :=
  let n := (l.filter (fun o => o.owner == g.gid)).length - g.count gather
  (l.foldl (fun (q : List EngineOp × Nat) o =>
    if o.owner == g.gid && 0 < q.2 then (q.1 ++ [{ o with reported := true }], q.2 - 1) else (q.1 ++ [o], q.2)) ([], n)).1
/-- The operations of a block given numbers on their core. -/
def State.queueOps (s : State) (c : Nat) (l : List EngineOp) : State :=
  l.foldl (fun s o => s.modCore c (fun k => { k with ops := k.ops ++ [{ o with id := k.opSeq }], opSeq := k.opSeq + 1 })) s
/-- The record of a promised block restored (R309). -/
def State.swapIn (s : State) (c bn : Nat) (r : Reserve) (g : Grid) : State :=
  let i : Image := { part := g.part, at' := r.entry.recAddr }
  let stopped := ((s.desc c g.ctxid).map (s.bars g.ctxid)).getD false
  let b := s.loadBlock i c r.slot g r.entry.linear stopped
  let old (gid : Nat) : Option Replay := (g.replays.find? (fun q => q.1 == b.linear && q.2.1 == gid)).map (fun q => q.2.2)
  let gs := (List.range b.ngroup).map (fun gid =>
    s.loadGroup { i with at' := i.at' + BitVec.ofNat 64 (groupRecOff g.roles gid) } c bn gid
      ((rolesByGid g.roles).getD gid (0, noRole)).1 (old gid))
  let b1 := { b with sysArrived := gs.filterMap (fun x => ((old x.gid).bind Replay.sys).map (fun n => (x.gid, n))),
                     sysBad := (gs.filter (fun x => (old x.gid).any Replay.sysBad)).map Group.gid }
  let aged (o : EngineOp) : EngineOp := { o with failAge :=
    ((((old o.owner).map Replay.fails).getD []).find? (fun f => f.1 == o.gather && f.2.1 == o.seq)).elim s.failSeq (fun f => f.2.2) }
  let ops (gather : Bool) : List EngineOp :=
    (gs.foldl (fun l x => markReported x gather l)
      (s.loadOps i (engOff g.roles g.localSize + (if gather then 131072 else 0)) (s.imgNat i (if gather then 0x32 else 0x30) 2) bn b.ntbar gather)).map aged
  let s1 := ({ s with blocks := aput bn b1 s.blocks }).modCore c (fun k =>
    { k with reserve := adel bn k.reserve, admitSeq := k.admitSeq + 1 })
  let s2 := gs.foldl (fun s x => s.placeGroup (groupKey bn x.gid) x) s1
  let s3 := (s2.queueOps c (ops false)).queueOps c (ops true)
  let s4 := (s3.acquire c 2).modGrid g.part g.seq (fun g => { g with replays := g.replays.filter (fun q => q.1 != b.linear) })
  let asks (s : State) (x : Group) : State := match x.wait with
    | .regacq n => s.modCore c (fun k => { k with regq := k.regq ++ [(groupKey bn x.gid, n)] })
    | .engineSlot gather => s.modCore c (fun k => { k with slotq := k.slotq ++ [(gather, groupKey bn x.gid)] })
    | _ => s
  let s5 := gs.foldl (fun s x => if x.parked then (s.postMoor c (s.groupMoor (groupKey bn x.gid) x)).1 else asks s x) (s4.dropRo c)
  (gs.foldl (fun s x => (s.report c (groupKey bn x.gid) false).report c (groupKey bn x.gid) true) s5).settleGang bn
/-- Whether the header of a record names the grid that it was saved for (R309). -/
def State.recordOk (s : State) (i : Image) (seq : Nat) : Bool :=
  s.imgNat i 0 4 == 0x4C424B31 && s.imgNat i 4 2 == 1 && s.imgNat i 8 8 == seq

/-! ## Retirement (R88, R186, R211, R239) -/

/-- Whether every group of a block has ended and every operation has completed or failed. -/
def State.blockDone (s : State) (bn : Nat) (b : Block) : Bool :=
  (s.liveGroups bn).isEmpty && (s.core b.core).ops.all (fun o => o.blk != some bn || o.complete || o.state == 3) &&
    !s.groups.any (fun e => e.2.blk == some bn && !e.2.quiet)
/-- The unsurfaced failures of a block enter the grid's completion (R211): ENGREC is the record of the oldest of the grid's (R239). -/
def State.leaveFailures (s : State) (bn : Nat) (b : Block) : State :=
  ((s.core b.core).ops.filter (fun o => o.blk == some bn && o.state == 3)).foldl (fun s o =>
    (s.modGrid b.part b.seq (fun g =>
      let take := g.engrec.isEmpty || o.failAge < g.engAge
      { g.fail 2 1 0 o.failAge with
        engrec := if take then (List.range 128).foldl (fun m k => aset 0 k (o.bytes.getD k 0) m) [] else g.engrec,
        engAge := if take then o.failAge else g.engAge })).logEvent
      false 17 b.part b.core b.ctxid [BitVec.ofNat 64 o.freason, BitVec.ofNat 64 o.fcode, o.faddr]) s
/-- The posted-write failures still recorded when the context's last block on a core retires (R186). -/
def State.leaveDeferred (s : State) (b : Block) : State :=
  if s.blocks.any (fun e => e.2.core == b.core && e.2.ctxid == b.ctxid) then s
  else match aget? b.ctxid.toNat (s.core b.core).deferred with
    | none => s
    | some d =>
      (s.modCore b.core (fun k => { k with deferred := adel b.ctxid.toNat k.deferred })).modGrid b.part b.seq (fun g => g.fail 1 d.count d.addr d.age)
/-- A block retires: its record and its resources are free. -/
def State.retireBlock (s : State) (bn : Nat) (b : Block) : State :=
  let s1 := (((s.leaveFailures bn b).retireBlockEps b).dropBlock bn b).leaveDeferred b
  ({ s1 with ballast := adel (recKey b.part b.seq b.linear) s1.ballast }).modGrid b.part b.seq
    (fun g => { g with retired := g.retired + 1 })
/-- Whether a grid may retire (R239): its blocks are retired or lost, or it was ended with none of them left, and the grids that it
launched have retired. -/
def State.gridDone (s : State) (g : Grid) : Bool :=
  g.live && (g.blocks ≤ g.retired || (g.killed && !s.blocks.any (fun e => e.2.part == g.part && e.2.seq == g.seq) &&
      !s.cores.any (fun e => e.2.reserve.any (fun r => r.2.part == g.part && r.2.seq == g.seq)))) &&
    !s.grids.any (fun e => e.2.part == g.part && e.2.live && e.2.parent.any (fun p => p.1 == g.seq))
/-- The 160 bytes of a completion record (R239). -/
def Grid.record (g : Grid) (tick : DWord) : List Byte :=
  leBytes g.seq 8 ++ leBytes g.status 2 ++ leBytes 0 2 ++ leBytes g.nfail 4 ++ leBytes tick.toNat 8 ++
    leBytes (if g.status = 1 ∨ g.status = 3 ∨ g.status = 4 then g.detail.toNat else 0) 8 ++
    (List.range 128).map (fun k => if g.status = 2 then aval 0 k g.engrec else 0)
/-- Bytes written for a context by no group, at the point of coherence, sector by sector, and through to the host where its mapping is not
coherent (R372); none where a sector's address fails the checks of a user store or its link is down. -/
def State.ctxStore (s : State) (c : Nat) (w : Who) (va : DWord) (bytes : List Byte) : Option State :=
  let spans := (List.range ((va.toNat % 64 + bytes.length + 63) / 64)).map (fun k =>
    let lo := if k = 0 then 0 else 64 * k - va.toNat % 64
    (va + BitVec.ofNat 64 lo, (bytes.drop lo).take (if k = 0 then 64 - va.toNat % 64 else 64)))
  let ts := spans.mapM (fun q => match s.checkByte { w with core := c } .write q.1 true with
    | .ok (e, t) => if s.linkUp w t then some (q.1, q.2, e, t) else none
    | .error _ => none)
  ts.map (fun l => l.foldl (fun s q =>
    let o := va57 q.1 % 64
    let s1 := match q.2.2.2 with
      | .dev pa => s.recall noCore (pa - o)
      | _ => s
    let s2 := s1.storeSector c w.asid q.2.2.1 (q.2.2.2.back o) (canon57 (va57 q.1 - o))
      ((List.range q.2.1.length).map (fun k => (o + k, q.2.1.getD k 0))) false
    match q.2.2.2 with
    | .host pa false => s2.hostLineWb c (pa / 256)
    | _ => s2) s)
/-- The identity by which the distributor acts for a context: its descriptor in the partition's table, and walks that no core's permission cache serves. -/
def State.whoDist (s : State) (part : Nat) (ctxid : BitVec 16) : Who :=
  match s.tableCore part with
  | some h => { s.whoCtx h ctxid with core := noCore }
  | none => { core := noCore, part, asid := 0, root := 0, user := true, secure := false, ctxid, ok := false }
/-- A grid retires (R239, R262): its endpoints retire, and its completion record is written where CREC asks for it. -/
def State.retireGrid (s : State) (g : Grid) : State :=
  let s1 := match s.tableCore g.part with
    | some h => s.retireEps h g.ctxid (fun r => r.st == 1 && r.gridseq == g.seq)
    | none => s
  let s2 := s1.modGrid g.part g.seq (fun g => { g with live := false, returns := [], replays := [] })
  let s3 := { s2 with ballast := s2.ballast.filter (fun e => e.1 / 2 ^ 32 != gridKey g.part g.seq) }
  if !g.crec then s3
  else match s3.ctxStore noCore (s3.whoDist g.part g.ctxid) g.craddr (g.record s.tick) with
    | some s4 => s4
    | none => s3.logEvent false 16 g.part 0xFF g.ctxid [BitVec.ofNat 64 g.seq]

end Sys2Proof.Machine
end

