-- ==== Sys2Proof/Machine/Launch.lean ====
section
/-! DEFINITION. The launch class and the events of the distributor (R241 to R260). -/
namespace Sys2Proof.Machine

/-- The LAUNCH trap (R255, R295). -/
def launchTrap (reason depth : Nat) (cur : Mask) : Halt := .trap (trap0 22 (BitVec.ofNat 32 (reason + 16 * depth)) cur)

/-! ## LAUNCH (R251) -/

/-- The trap of LAUNCH's record read: one access of the group, whose lanes and unfinished lanes are the current mask and whose lane field is
the lowest ACTIVE lane. -/
def recordTrap (cause w0 : Nat) (va : DWord) (cur m : Mask) : Trap :=
  { trap64 cause (BitVec.ofNat 32 (w0 + 16 * lowLane m)) va cur with unfin := cur }
/-- The four sectors of the record. -/
def recordVa (va : DWord) (k : Nat) : DWord := va + BitVec.ofNat 64 (64 * k)
/-- The checks of R145 on the record read: alignment, the pages, the watchpoints. -/
def recordCheck (s : State) (w : Who) (g : Group) (va : DWord) (m : Mask) : Option (Trap × Nat) :=
  let cur := g.mask0
  if va.toNat % 64 ≠ 0 then some (recordTrap 6 (4096 * 6) va cur m, 0)
  else match (List.range 4).findSome? (fun k => match s.checkByte w .read (recordVa va k) true with
      | .error e => some (recordTrap 5 e (recordVa va k) cur m, e)
      | .ok _ => none) with
    | some x => some x
    | none =>
      if g.skipWatch false then none
      else (s.watchHit w.core w.asid (lowLane m) va 256 true false).map (fun n => (recordTrap 7 n va cur m, 0))
/-- The bytes of a record read at the point of coherence: the state, the bytes, their poison, and the sectors that a link must
bring. -/
structure RecordRun where
  s : State
  bytes : List Byte
  poison : Bool
  needs : List Fetch
  failed : Option Nat
deriving DecidableEq, Repr
/-- The read of the four sectors. -/
def readRecord (s : State) (w : Who) (va : DWord) (p : Pend) : RecordRun :=
  (List.range 4).foldl (fun (q : RecordRun) k =>
    let a := recordVa va k
    let sva := va57 a
    match q.s.checkByte w .read a true with
    | .error _ => q
    | .ok (e, t) => match aget? (sva / 64) p.fails with
      | some f => { q with failed := some (q.failed.getD f) }
      | none => match (q.s.fillPerm w.core e).loadSector w.core w.asid e t sva 0 64 .poc (p.sector sva t) with
        | .bytes s b poison => { q with s, bytes := q.bytes ++ b, poison := q.poison || poison }
        | .remote s f => { q with s, needs := q.needs ++ [f] })
    { s, bytes := [], poison := false, needs := [], failed := none }
/-- LAUNCH (R251). -/
def execLaunch (r : RWord) (s : State) : Out State :=
  stateWord (.launch r) s (fun g m => do
    let key := s.cur.key
    let cur := g.mask0
    match s.blockOf g with
    | none => throw (.fault .noGroup)
    | some b => match s.gridOf b with
      | none => throw (.fault .noTarget)
      | some parent =>
        if parent.depth = 10 then throw (launchTrap 1 10 cur)
        g.consumeU 4 m [r.a.toNat, r.a.toNat + 1]
        let s1 ← s.publishAll g.core
        let va := g.getS64 r.a.toNat
        let w := s1.whoCtx g.core b.ctxid
        match recordCheck s1 w g va m with
        | some (t, k) => throw (.part (s1.dropPerm w (BitVec.ofNat 64 (t.w1.toNat + 2 ^ 32 * t.w2.toNat)) k) t)
        | none =>
          let p := g.pend0.getD Pend.empty
          let q := readRecord s1 w va p
          if !q.needs.isEmpty then
            let x := q.s.requestSectors (slotKey key false) w none p q.needs
            throw (.wait (x.1.modGroup key (fun g => g.setPend false (some x.2))) .none)
          match q.failed with
          | some f => throw (.part q.s (remoteTrap f va cur))
          | none =>
            let out (s : State) (st : Nat) (seq : Nat) : State := s.modGroup key (fun g =>
              ((g.setS r.d.toNat (BitVec.ofNat 32 st) false).setS (r.d.toNat + 1) 0 false).setS64 (r.d.toNat + 2) (BitVec.ofNat 64 seq) false)
            match q.s.rawDesc g.core b.ctxid with
            | none => pure (out q.s 1 0)
            | some d =>
              let st := q.s.launchStatus b.part b.ctxid d q.bytes q.poison
              if st = 0 then
                let x := q.s.createGrid b.part b.ctxid d q.bytes (parent.depth + 1) (some (b.seq, b.linear, g.gid))
                pure (out x.1 0 x.2)
              else pure (out q.s st 0))

/-! ## CWAIT, REGACQ, REGREL, GANGBAR -/

/-- The uncollected children of a group (R252), ascending. -/
def State.children (s : State) (b : Block) (gid : Nat) : List Grid :=
  (s.grids.filter (fun e => e.2.part == b.part && !e.2.collected && e.2.parent == some (b.seq, b.linear, gid))).map Prod.snd
/-- CWAIT (R252). -/
def execCwait (r : RWord) (s : State) : Out State :=
  issue (.cwait r) s (fun g _ => do
    match s.blockOf g with
    | none => throw (.fault .noGroup)
    | some b =>
      let all := s.children b g.gid
      let w := if xbit r 1 then all.filter (fun x => x.seq == (g.getS64 r.a.toNat).toNat) else all
      if xbit r 1 && w.isEmpty then throw (launchTrap 5 0 g.mask0)
      if w.any (fun x => x.live) then throw (.wait s (.cwait (w.map Grid.seq)))
      let st := ((w.find? (fun x => x.status != 0)).map Grid.status).getD 0
      let s1 := w.foldl (fun s x => s.modGrid x.part x.seq (fun y => { y with collected := true })) s
      pure ((s1.modGroup s.cur.key (fun h => h.setS r.d.toNat (BitVec.ofNat 32 st) false)).acquire g.core 2).advance)
/-- The allotment that REGACQ or REGREL names (R250): N8, or the role's own where it is 0. -/
def regTarget (r : RWord) (own : Nat) : Nat := if xf r 1 6 = 0 then 8 * own else 8 * xf r 1 6
/-- The oldest resident block of a core (R247). -/
def State.oldestBlock (s : State) (c : Nat) : Option (Nat × Block) :=
  (s.blocks.filter (fun e => e.2.core == c)).foldl (fun o e => match o with
    | none => some e
    | some x => if e.2.age < x.2.age then some e else some x) none
/-- The youngest resident block of a core that satisfies a condition. -/
def State.youngestBlock (s : State) (c : Nat) (f : Nat × Block → Bool) : Option (Nat × Block) :=
  (s.blocks.filter (fun e => e.2.core == c && f e)).foldl (fun o e => match o with
    | none => some e
    | some x => if x.2.age < e.2.age then some e else some x) none
/-- The loads of what a core keeps room for beside its resident blocks (R244, R309): promised blocks and enlistments. -/
def State.keptLoads (s : State) (c : Nat) : List Load := (s.loads c).drop (s.blocksOn c).length
/-- Whether a request of REGACQ can be granted (R247). Registers that are kept for a block to come are not free, and its need counts (DEDUCED,
log 60: it was admitted when it was promised). -/
def State.grantable (s : State) (c key n : Nat) : Bool :=
  match s.group? key with
  | none => false
  | some g =>
    let x := 32 * (n - g.allot)
    let kept := s.keptLoads c
    let free := s.freeRegs c - (kept.map Load.regs).sum
    let m := ((s.blocks.filter (fun e => e.2.core == c && some e.1 != g.blk)).map (fun e => s.need e.1 e.2) ++ kept.map Load.need).foldl max 0
    if (s.oldestBlock c).map Prod.fst == g.blk then decide (x ≤ free)
    else decide (x ≤ free ∧ ((s.core c).scale * m + 3) / 4 ≤ free - x)
/-- The request that the core grants next (R247): oldest block first, and within a block in the order made. -/
def State.nextGrant (s : State) (c : Nat) : Option (Nat × Nat) :=
  let age (q : Nat × Nat) : Nat := (((s.group? q.1).bind s.blockOf).map Block.age).getD 0
  ((s.core c).regq.filter (fun q => s.grantable c q.1 q.2)).foldl (fun o q => match o with
    | none => some q
    | some x => if age q < age x then some q else some x) none
/-- A request granted (R249, R253): the group's allotment grows, and it goes on after its word. -/
def State.grantReg (s : State) (c key n : Nat) : State :=
  (s.modCore c (fun k => { k with regq := k.regq.erase (key, n) })).modGroup key (fun g => ({ g with allot := n }).depart (.regacq n))
/-- REGACQ (R253): the request joins the core's queue, and it is granted at once where R247 allows it. -/
def execRegacq (r : RWord) (s : State) : Out State :=
  issue (.regacq r) s (fun g _ => do
    match s.blockOf g with
    | none => throw (.fault .noGroup)
    | some b =>
      let full := (s.roleOf b g.gid).fgran
      let n := regTarget r full
      if 8 * full < n then throw (launchTrap 2 0 g.mask0)
      if n ≤ g.allot then pure s.advance
      else
        let key := s.cur.key
        let s1 := s.modCore g.core (fun k => { k with regq := if k.regq.contains (key, n) then k.regq else k.regq ++ [(key, n)] })
        if s1.nextGrant g.core = some (key, n) then pure ((s1.waitAt (.regacq n)).grantReg g.core key n)
        else throw (.wait s1 (.regacq n)))
/-- The registers from n on leave a group (R249). -/
def Group.shrink (g : Group) (n : Nat) : Group :=
  { g with allot := n, v := g.v.filter (fun q => q.1 < vkey n 0), vPoison := g.vPoison.filter (fun q => q.1 < n) }
/-- REGREL (R253). -/
def execRegrel (r : RWord) (s : State) : Out State :=
  issue (.regrel r) s (fun g _ => do
    match s.blockOf g with
    | none => throw (.fault .noGroup)
    | some b =>
      let pro := (s.roleOf b g.gid).pgran
      let n := regTarget r pro
      if n < 8 * pro then throw (launchTrap 3 0 g.mask0)
      pure (if n < g.allot then s.setGroup s.cur.key (g.shrink n) else s).advance)
/-- GANGBAR (R254): the arrival commits here, and the group departs with the gang. -/
def execGangbar (s : State) : Out State :=
  issue .gangbar s (fun g _ => do
    match g.blk, s.blockOf g with
    | some bn, some b =>
      if ((s.gridOf b).map Grid.gang).getD 0 = 0 then throw (launchTrap 4 0 g.mask0)
      let s0 ← s.publishAll g.core
      let s1 := s0.modBlock bn (fun k => { k with gangArrived := k.gangArrived + 1 })
      pure ((s1.modGroup s.cur.key (fun g => { g with wait := .gangbar })).settleGang bn)
    | _, _ => throw (.fault .noGroup))

/-! ## Events of the distributor -/

/-- 10 µs and 20 µs in ticks of 1 ns (R10). -/
def tenMicros : DWord := 10000
def twentyMicros : DWord := 20000
/-- REGACQ_GRANT (R247). -/
def execRegacqGrant (core : Nat) (s : State) : Out State :=
  match s.nextGrant core with
  | some (key, n) => .next (s.grantReg core key n)
  | none => .fault .notNow
/-- Whether every resident user group of a core waits in REGACQ and none can be granted (R248). -/
def State.regStalled (s : State) (c : Nat) : Bool :=
  let gs := s.groups.filter (fun e => e.2.core == c && !e.2.isSup && e.2.state != .ended)
  !gs.isEmpty && gs.all (fun e => (s.core c).regq.any (fun q => q.1 == e.1)) && (s.nextGrant c).isNone &&
    !(s.core c).mq.any (fun e => e.2.kind == 3)
/-- REGISTER_STALL (R248): the entry names the youngest resident block, the one to swap out. -/
def execRegisterStall (core : Nat) (s : State) : Out State :=
  match s.youngestBlock core (fun _ => true) with
  | none => .fault .notNow
  | some (bn, b) =>
    if !s.regStalled core then .fault .notNow
    else
      let q := s.postMoor core { kind := 3, popped := false, order := 0, key := 0, blk := some bn, seq := b.seq, linear := b.linear, op := none }
      if q.2 then .next q.1 else .fault .notNow
/-- CORE_WORK_REQUEST (R241): the answer that no work is available changes nothing. -/
def execCoreWorkRequest (core : Nat) (s : State) : Out State :=
  if (aget? core s.cores).isNone then .fault .noTarget
  else if !s.mayAsk core then .fault .notNow
  else .next ((s.answer core).getD s)
/-- GANG_ENLIST_TIMEOUT (R244): an enlistment of 10 µs dissolves. -/
def execGangEnlistTimeout (part seq : Nat) (s : State) : Out State :=
  match (s.part part).enlists.find? (fun x => x.seq == seq) with
  | none => .fault .notNow
  | some e =>
    if (s.tick - e.since).toNat < tenMicros.toNat then .fault .notNow
    else .next (s.modPart part (fun p => { p with enlists := p.enlists.filter (fun x => x.seq != seq) }))
/-- A swap request for a block, and for its whole gang (R244). -/
def State.requestSwapAll (s : State) (bn : Nat) (b : Block) (reason : Nat) : State :=
  let gang := s.gangOf b.part b.seq
  if gang = 0 then s.requestSwap bn b reason else s.recallGang b.part b.seq (b.linear / gang) reason
/-- A block displaced to make room for a block of a grid (R243, R256): what it stands behind, where they are of one grid. -/
def State.displace (s : State) (bn : Nat) (b : Block) (seq linear : Nat) : State :=
  let mates := if b.gang then (s.gangHere b.part b.seq (b.linear / s.gangOf b.part b.seq)).map Prod.fst else [bn]
  let s1 := if b.seq = seq then mates.foldl (fun s n => s.modBlock n (fun k => { k with behind := some linear })) s else s
  s1.requestSwapAll bn b 1
/-- Whether some core could readmit an entry of a return list now (R256 item 2): of a gang, as many as its members need. -/
def State.couldReadmit (s : State) (g : Grid) (x : Swapped) : Bool :=
  let cores := (s.healthy g.part).filter (fun c =>
    s.mayAsk c && !(s.core c).hold.any (fun h => decide (g.prio < h.2)) && s.budgetOk c g.pwr &&
      (s.desc c g.ctxid).any (fun d => !s.bars g.ctxid d) && loadsFit (s.core c).scale (x.load g :: s.loads c))
  let n := if g.gang = 0 then 1 else (g.gangEntries (x.linear / g.gang)).length
  decide (n ≤ cores.length)
/-- Whether every group of a block that has not ended waits in CWAIT. -/
def State.allInCwait (s : State) (bn : Nat) : Bool :=
  !(s.liveOf bn).isEmpty && (s.liveOf bn).all (fun g => match g.wait with
    | .cwait _ => true
    | _ => false)
/-- DISPLACE_WAITING_PARENT (R256 item 1): the youngest waiting block of a core that holds one; while it is asked already, no other is. -/
def execDisplaceWaitingParent (part : Nat) (s : State) : Out State :=
  let late (g : Grid) : Bool := s.ready g && twentyMicros.toNat ≤ (s.tick - g.stamp).toNat && loadsFit 4 [g.firstLoad]
  match (s.gridOrder part).find? late with
  | none => .fault .notNow
  | some g => match (s.healthy part).findSome? (fun c => s.youngestBlock c (fun e => s.allInCwait e.1)) with
    | some (bn, b) =>
      if s.requested b.core bn then .fault .notNow
      else .next (s.displace bn b g.seq (((g.returns.find? (s.eligibleEntry g)).map Swapped.linear).getD g.claimed))
    | none => .fault .notNow
/-- DISPLACE_HIGHER_BLOCK (R256 item 2): the highest block of the grid; while it is asked already, no other is. -/
def execDisplaceHigherBlock (part seq : Nat) (s : State) : Out State :=
  match s.grid? part seq with
  | none => .fault .noTarget
  | some g => match g.returns with
    | [] => .fault .notNow
    | x :: _ =>
      if !s.eligibleEntry g x || (s.tick - x.since).toNat < twentyMicros.toNat || s.couldReadmit g x then .fault .notNow
      else
        let l := s.blocks.filter (fun e => e.2.part == part && e.2.seq == seq && x.linear < e.2.linear)
        match l.foldl (fun (o : Option (Nat × Block)) e => match o with
            | none => some e
            | some y => if y.2.linear < e.2.linear then some e else some y) none with
        | some (bn, b) => if s.requested b.core bn then .fault .notNow else .next (s.displace bn b seq x.linear)
        | none => .fault .notNow
/-- BLOCK_RETIRE (R88, R162, R239): the block's publish at system scope, and its retirement once its posted writes are
acknowledged. -/
def execBlockRetire (blk : Nat) (s : State) : Out State :=
  match aget? blk s.blocks with
  | none => .fault .noTarget
  | some b =>
    if !s.blockDone blk b then .fault .notNow
    else
      let s1 := s.publish b.core
      .next (if s1.postedOut b.core b.ctxid then s1 else s1.retireBlock blk b)
/-- GRID_RETIRE (R239). -/
def execGridRetire (part seq : Nat) (s : State) : Out State :=
  match s.grid? part seq with
  | none => .fault .noTarget
  | some g => if s.gridDone g then .next (s.retireGrid g) else .fault .notNow

end Sys2Proof.Machine
end

