-- ==== Sys2Proof/Machine/Tether.lean ====
section
/-! DEFINITION. The tether class (R262 to R284): binding, permissions, sends, takes, and the asynchronous entry. -/
namespace Sys2Proof.Machine

/-- Consumption of the poisoned registers of a tether word (R267): each register with its use, in field order. -/
def Group.consumeT (g : Group) (m : Mask) (regs : List (Nat × Nat)) : Res Unit :=
  match regs.find? (fun q => g.poisonS q.1) with
  | some (r, use) => .error (.trap (poisonTrap use r true m))
  | none => .ok ()
/-- A tether word (R267): poison, and then the word's own operation, on the group's block and the context's descriptor. A context
whose descriptor context 0 does not map has records of zeros (DESIGN CHOICE, log 18). -/
def tetherWord (i : Instr) (s : State) (regs : List (Nat × Nat)) (f : Group → Mask → Block → Desc → Res State) : Out State :=
  stateWord i s (fun g m => do
    g.consumeT m regs
    match s.blockOf g with
    | none => throw (.fault .noGroup)
    | some b => f g m b ((s.rawDesc g.core b.ctxid).getD (descOf 0 [])))
/-- A status register written, unpoisoned. -/
def State.status (s : State) (d st : Nat) : State := s.modGroup s.cur.key (fun g => g.setS d (BitVec.ofNat 32 st) false)
/-- A record bound by a grid (R269, R270). -/
def EpRec.ownedBy (r : EpRec) (seq : Nat) : Bool := r.st == 1 && r.gridseq == seq
/-- An operand of a tether word. -/
def useT (r : BitVec 8) : Nat × Nat := (r.toNat, 10)
/-- The two registers of a pair operand. -/
def useT2 (r : BitVec 8) (use : Nat) : List (Nat × Nat) := [(r.toNat, use), (r.toNat + 1, use)]

/-! ## Binding (R268 to R270) -/

/-- TREG (R268). -/
def execTreg (r : RWord) (s : State) : Out State :=
  tetherWord (.treg r) s [useT r.a, useT r.b] (fun g _ b d => do
    let e := (g.getS r.a.toNat).toNat
    let c := (g.getS r.b.toNat).toNat
    let hgrp := c % 32
    let cm := c / 32 % 4
    if 63 < e then pure (s.status r.d.toNat 6)
    else if c / 256 ≠ 0 ∨ b.ngroup ≤ hgrp ∨ cm = 3 ∨ (e = 63 ∧ cm ≠ 0) then pure (s.status r.d.toNat 11)
    else if (s.ep b.part d e).st = 1 then pure (s.status r.d.toNat 7)
    else
      let x : EpRec := { st := 1, cm, wake := c / 128 % 2 == 1, hgrp, pend := 0, ovf := 0, nperm := 0, gridseq := b.seq,
                         block := b.linear, lastsnd := 0, payload := 0, perm := List.replicate 32 0 }
      pure ((s.setEp b.part d e x).status r.d.toNat 0))
/-- TFREE (R269). -/
def execTfree (r : RWord) (s : State) : Out State :=
  tetherWord (.tfree r) s [useT r.a] (fun g _ b d => do
    let e := (g.getS r.a.toNat).toNat
    let x := s.ep b.part d e
    if 63 < e then pure ((s.status r.d.toNat 6).status (r.d.toNat + 1) 0)
    else if !x.ownedBy b.seq then pure ((s.status r.d.toNat 8).status (r.d.toNat + 1) 0)
    else pure (((s.setEp b.part d e { x with st := 0, pend := 0, ovf := 0, payload := 0 }).status r.d.toNat 0).status (r.d.toNat + 1) x.pend))
/-- A permission entry (R265). -/
def permEntry (sid : Word) (ac ah : Bool) : DWord :=
  BitVec.ofNat 64 (2 ^ 63 + (if ac then 2 ^ 62 else 0) + (if ah then 2 ^ 61 else 0) + sid.toNat)
/-- The table with its count of valid entries. -/
def EpRec.withPerm (r : EpRec) (l : List DWord) : EpRec := { r with perm := l, nperm := (l.filter (fun x => x.getLsbD 63)).length }
/-- The edit of a permission table (R270): the status and the record. -/
def permEdit (op : Nat) (x : DWord) (r : EpRec) : Nat × EpRec :=
  let same (y : DWord) : Bool := y == x
  if op = 0 then
    if r.perm.any same then (0, r)
    else match (List.range 32).find? (fun k => !(r.perm.getD k 0).getLsbD 63) with
      | some k => (0, r.withPerm (r.perm.set k x))
      | none => (9, r)
  else if op = 1 then
    if r.perm.any same then (0, r.withPerm (r.perm.map (fun y => if same y then 0 else y))) else (10, r)
  else (0, r.withPerm (List.replicate 32 0))
/-- TPERM (R270): the operation stands in S[C]. -/
def tperm (i : Instr) (r : RWord) (s : State) : Out State :=
  tetherWord i s [useT r.a, useT r.b, useT r.c] (fun g _ b d => do
    let e := (g.getS r.a.toNat).toNat
    let o := (g.getS r.c.toNat).toNat
    if 63 ≤ e then pure (s.status r.d.toNat 6)
    else if o / 16 ≠ 0 ∨ o % 4 = 3 then pure (s.status r.d.toNat 11)
    else
      let x := s.ep b.part d e
      if !x.ownedBy b.seq then pure (s.status r.d.toNat 8)
      else
        let q := permEdit (o % 4) (permEntry (g.getS r.b.toNat) (o / 4 % 2 == 1) (o / 8 % 2 == 1)) x
        pure ((if q.1 = 0 then s.setEp b.part d e q.2 else s).status r.d.toNat q.1))
/-- TPERM_ADD (R270). -/
def execTpermAdd (r : RWord) (s : State) : Out State := tperm (.tpermAdd r) r s
/-- TPERM_REMOVE (R270). -/
def execTpermRemove (r : RWord) (s : State) : Out State := tperm (.tpermRemove r) r s
/-- TPERM_CLEAR (R270). -/
def execTpermClear (r : RWord) (s : State) : Out State := tperm (.tpermClear r) r s

/-! ## Sending (R271) -/

/-- The part under which a slot waits for the response to a TSEND. -/
def tsendKey : Nat := 2 ^ 59
/-- The end of a TSEND: the status, and the predicate in the ACTIVE lanes. -/
def tsendDone (r : RWord) (m : Mask) (st : Nat) (s : State) : State :=
  (s.status r.d.toNat st).modGroup s.cur.key (fun g =>
    { g.setP (r.xop.toNat % 8) m (if st = 0 then BitVec.allOnes 32 else 0) with pend0 := none })
/-- A TSEND to a peer: the request leaves, and the slot waits for the status. -/
def tsendPeer (s : State) (g : Group) (b : Block) (chip ctxid e : Nat) (payload : DWord) : State :=
  let t : Target := .peer chip (BitVec.ofNat 16 ctxid) (BitVec.ofNat 64 e)
  let r := s.newRequest { blankRequest .tsend g.core b.ctxid t 0 s.tick with
    key := slotKey s.cur.key false, port := s.portTo (s.linkPart g.core b.ctxid) chip (BitVec.ofNat 64 e) }
  (r.1.send (.tether r.2 chip ctxid e (senderId 2 s.chip b.ctxid.toNat) payload)).modGroup s.cur.key
    (fun g => { g with pend0 := some { Pend.empty with waiting := [(r.2, tsendKey)] } })
/-- TSEND (R271). -/
def execTsend (r : RWord) (s : State) : Out State :=
  tetherWord (.tsend r) s ([useT r.a] ++ useT2 r.b 5 ++ [useT r.c]) (fun g m b _ => do
    let t := (g.getS r.a.toNat).toNat
    let e := (g.getS r.c.toNat).toNat
    let payload := g.getS64 r.b.toNat
    let chip := t / 65536 % 16384
    let ctx := t % 65536
    if 62 < e ∨ t / 2 ^ 30 ≠ 0 then pure (tsendDone r m 6 s)
    else if chip = 0x3FFF ∨ chip = s.chip then
      let s1 ← s.release g b.ctxid 2 g.mask0
      let q := s1.accept g.core (BitVec.ofNat 16 ctx) e payload (senderId 0 s.chip b.ctxid.toNat)
      pure (tsendDone r m q.1 q.2)
    else match g.pend0.bind (fun p => aget? tsendKey p.landed) with
      | some (bytes, _) => pure (tsendDone r m (leNat bytes) s)
      | none =>
        let s1 ← s.release g b.ctxid 3 g.mask0
        if !s1.chipUp (s1.linkPart g.core b.ctxid) chip then pure (tsendDone r m 5 s1)
        else throw (.wait (tsendPeer s1 g b chip ctx e payload) .none))

/-! ## Taking (R275) -/

/-- The endpoints of a set that the caller handles (R275), ascending. -/
def State.epSet (s : State) (b : Block) (d : Desc) (gid : Nat) (set : DWord) : List Nat :=
  (List.range 64).filter (fun e => set.getLsbD e && (s.epHead b.part d e).handledBy b gid)
/-- A take (R275): the four registers, the record cleared, and the acquire at system scope. -/
def State.take (s : State) (g : Group) (b : Block) (d : Desc) (dst e : Nat) : State :=
  let x := s.ep b.part d e
  let s1 := s.setEp b.part d e { x with pend := 0, ovf := 0, payload := 0 }
  let s2 := s1.modGroup s.cur.key (fun h =>
    ((h.setS dst (BitVec.ofNat 32 (2 ^ 31 + x.ovf * 2 ^ 30 + e)) false).setS (dst + 1) (BitVec.ofNat 32 x.pend) false).setS64 (dst + 2)
      x.payload false)
  s2.acquire g.core 3
/-- TWAIT (R275). -/
def execTwait (r : RWord) (s : State) : Out State :=
  tetherWord (.twait r) s (useT2 r.a 10) (fun g _ b d => do
    let set := g.getS64 r.a.toNat
    let l := s.epSet b d g.gid set
    if l.isEmpty then throw (tetherTrap 1 g.mask0)
    match l.find? (fun e => (s.epHead b.part d e).pend != 0) with
    | some e => pure (s.take g b d r.d.toNat e)
    | none => throw (.wait s (.twait set)))
/-- TPOLL (R275). -/
def execTpoll (r : RWord) (s : State) : Out State :=
  tetherWord (.tpoll r) s (useT2 r.a 10) (fun g _ b d => do
    match (s.epSet b d g.gid (g.getS64 r.a.toNat)).find? (fun e => (s.epHead b.part d e).pend != 0) with
    | some e => pure (s.take g b d r.d.toNat e)
    | none => pure (s.modGroup s.cur.key (fun h => (h.setS64 r.d.toNat 0 false).setS64 (r.d.toNat + 2) 0 false)))
/-- TMASK (R277). -/
def execTmask (r : RWord) (s : State) : Out State :=
  tetherWord (.tmask r) s (useT2 r.a 10 ++ useT2 r.b 10) (fun g _ _ _ => do
    let m := g.getS64 r.a.toNat
    let v := g.getS64 r.b.toNat
    if m ≠ 0 ∧ (v.toNat % 8 ≠ 0 ∨ !canonical v) then throw (tetherTrap 5 g.mask0)
    pure (s.modGroup s.cur.key (fun h => { h.setS64 r.d.toNat h.tmask false with tmask := m, entrypc := v })))

/-! ## The asynchronous entry (R278, R279) -/

/-- TRET (R279): the restoration; a wait in BAR or GANGBAR goes on without a new arrival, where lanes are left to wait, and the retry of
the word at SPC that the entry put off. -/
def execTret (r : RWord) (s : State) : Out State :=
  issue (.tret r) s (fun g m =>
    if m = 0 then .ok s.advance
    else do
      if !g.inEntry then throw (tetherTrap 2 g.mask0)
      if g.depth ≠ g.sdepth then throw (tetherTrap 3 g.mask0)
      let m0 := g.smask &&& g.live
      pure (s.setGroup s.cur.key { (g.goTo false g.spc) with
        inEntry := false, mask0 := m0, wait := if g.arr ∧ m0 ≠ 0 then g.arrWait else .none, arr := false, arrWait := .none,
        retry0 := g.sretry, sretry := Retry.none }))
/-- Whether a word that waits for what a link brings stands at a commit boundary (R350): its parts are loads, which replay; an atomic and a
TSEND are settled first (R308 step 2). -/
def Pend.replays (p : Pend) : Bool :=
  (p.waiting.map Prod.snd ++ p.landed.map Prod.fst ++ p.fails.map Prod.fst).all (fun k => decide (k < atomKey 0))
/-- Whether R278 holds for a group: a masked-in endpoint that it handles is pending, and slot 0 stands at a commit boundary. -/
def State.mayEnter (s : State) (g : Group) : Bool :=
  match s.blockOf g with
  | none => false
  | some b =>
    !g.inEntry && g.mask0 != 0 && !g.parked && g.state == .running && !b.stopped && g.pend0.all Pend.replays &&
      g.tmask != 0 && (s.pendingEps b g.gid).any (fun e => g.tmask.getLsbD e)
/-- The requests of a group's waiting word are withdrawn. -/
def State.withdrawAsks (s : State) (c key : Nat) : State :=
  s.modCore c (fun k => { k with regq := k.regq.filter (fun q => q.1 != key), slotq := k.slotq.filter (fun q => q.2 != key) })
/-- The entry (R278): a waiting request of the old word is withdrawn, since the word executes again after TRET, under the retry that it had. -/
def State.enter (s : State) (key : Nat) (g : Group) : State :=
  let arr := match g.wait with
    | .bar _ | .gangbar => true
    | _ => false
  (s.setGroup key { g with
    spc := g.pc0, smask := g.mask0, sdepth := g.depth, inEntry := true, arr, arrWait := if arr then g.wait else .none, wait := .none,
    pc0 := g.entrypc, sretry := g.retry0, retry0 := Retry.none, pend0 := none }).withdrawAsks g.core key
/-- TETHER_ENTRY (R278). -/
def execTetherEntry (key : Nat) (s : State) : Out State :=
  match s.group? key with
  | none => .fault .noTarget
  | some g => if s.mayEnter g then .next (s.enter key g) else .fault .notNow
/-- Whether a Resolve is due before slot 0's word: an empty mask in a group that lives (R81, R279). A group that has arrived at a barrier or a
block call stands past its word until it departs. -/
def Group.resolveDue (g : Group) : Bool :=
  g.mask0 == 0 && g.live != 0 && !g.parked && g.state == .running && (match g.wait with
    | .bar _ | .gangbar | .syscallb => false
    | _ => true)
/-- Whether a sleep has ended (R90, R278): its tick has come, or an endpoint that the group handles is pending. -/
def State.sleepOver (s : State) (g : Group) : Bool :=
  g.wait == .sleep && (decide (g.wake.toNat ≤ s.tick.toNat) || (match s.blockOf g with
    | some b => !(s.pendingEps b g.gid).isEmpty
    | none => false))
/-- Whether the Resolve that is due may run now: a sleep is over, and the top entry is not divided (R81, R90). What the old word waited for
has no lane left. -/
def State.resolveReady (s : State) (g : Group) : Bool :=
  g.resolveDue && (match g.wait with
    | .sleep => s.sleepOver g
    | .splitTop => !(g.stack.head?.any StackEntry.split)
    | _ => true)
/-- The Resolve of R81 for slot 0 at the boundary before its word (R279): the word that it leads to is another one, so the retry and the
requests of the old word end. -/
def State.resolveNow (s : State) (key : Nat) (g : Group) : Out State :=
  match s.resolve g false g.mask0 with
  | .ok q => .next ((q.1.setGroup key { q.2 with wait := .none, retry0 := Retry.none, pend0 := none }).withdrawAsks g.core key)
  | .error (.trap t) => .next (s.takeTrapAt key g false g.pc0 t)
  | .error (.part s' t) => .next (s'.takeTrapAt key g false g.pc0 t)
  | .error (.wait s' w) => .next (s'.setGroup key { g with wait := w })
  | .error (.fault f) => .fault f
/-- RESOLVE_AFTER_TRET (R279). -/
def execResolveAfterTret (key : Nat) (s : State) : Out State :=
  match s.group? key with
  | none => .fault .noTarget
  | some g => if s.resolveReady g then s.resolveNow key g else .fault .notNow
/-- STOP_SECONDARY (R81, R82): slot 1 has reached a word of R82 and stops before it, or its mask is empty. Its issue does the same. -/
def execStopSecondary (key : Nat) (s : State) : Out State :=
  match s.group? key with
  | none => .fault .noTarget
  | some g =>
    let w := s.whoGroup g
    let reached := (s.unitWord w g.pc1).any stopsSlot1
    if g.run1 && !g.inEntry && !g.parked && (reached || g.mask1 == 0) then s.stopSecondary key g else .fault .notNow
/-- SLEEP_WAKE (R90): only slot 0 sleeps, since slot 1 stops before SLEEP. -/
def execSleepWake (key : Nat) (slot : Bool) (s : State) : Out State :=
  match s.group? key with
  | none => .fault .noTarget
  | some g => if !slot && s.sleepOver g then .next (s.setGroup key { g with wait := .none, young := true }) else .fault .notNow

end Sys2Proof.Machine
end

