-- ==== Sys2Proof/Machine/Supervisor.lean ====
section
/-! DEFINITION. The system class (R286 to R312): system calls and user traps, the supervisor's words, signals, pre-emption, and
the calls that the core supervisor firmware serves (R299, R410, R411). -/
namespace Sys2Proof.Machine

/-! ## Calls and user traps (R297 to R300) -/

/-- A word that traps its ACTIVE lanes and, with none, goes on (R297, R300). -/
def trapWord (i : Instr) (s : State) (t : Mask → Trap) : Out State :=
  issue i s (fun _ m => if m = 0 then .ok s.advance else .error (.trap (t m)))
/-- SYSCALL (R297). -/
def execSyscall (r : IWord) (s : State) : Out State :=
  trapWord (.syscall r) s (fun m => { cause := 16, w0 := r.imm, w1 := m, w2 := 0, lanes := m, unfin := 0 })
/-- SYSCALLB (R298): the arrival, as at BAR; the call is made once every group of the block has arrived. A group whose numbers differed while
an entry had taken it from its word traps now. -/
def execSyscallb (r : IWord) (s : State) : Out State :=
  issue (.syscallb r) s (fun g _ => do
    match g.blk with
    | none => throw (.fault .noGroup)
    | some n =>
      if (s.blockOf g).any (fun b => b.sysBad.contains g.gid) then
        throw (.part (s.modBlock n (fun k => { k with sysBad := k.sysBad.erase g.gid })) (trap0 19 10 g.mask0))
      s.performed g.core
      let s1 := s.modBlock n (fun k => { k with sysArrived := aput g.gid r.imm.toNat k.sysArrived })
      pure ((s1.modGroup s.cur.key (fun g => { g with wait := .syscallb })).settleCall n))
/-- TRAP (R300). -/
def execTrapW (r : IWord) (s : State) : Out State := trapWord (.trapW r) s (fun m => trap0 17 r.imm m)
/-- BKPT (R300). -/
def execBkpt (r : IWord) (s : State) : Out State := trapWord (.bkpt r) s (fun m => trap0 8 r.imm m)

/-! ## SRET, HALT -/

/-- SRET (R305): outside a supervisor trap it is ILLEGAL, reason 5. -/
def execSret (r : RWord) (s : State) : Out State :=
  issueWith (.sret r) s (fun g => if g.isSup && !(s.core g.core).nest then [5] else []) (fun _ => []) (fun g m =>
    if m = 0 then .ok s.advance else .ok (s.svReturn s.cur.key (g.advance false)))
/-- Whether a list of a core holds an entry that MQPOP would take. -/
def State.unpopped (s : State) (c : Nat) : Bool :=
  (s.core c).mq.any (fun e => !e.2.popped) || (s.core c).notices.any (fun e => !e.2.popped)
/-- HALT (R305). -/
def execHalt (r : RWord) (s : State) : Out State :=
  stateWord (.halt r) s (fun g _ => if s.unpopped g.core then .ok s else .error (.wait s .halt))

/-! ## MQPOP (R301) -/

/-- The lowest place by order among unpopped entries. -/
def oldestPlace {α : Type} (l : List (Nat × α)) (popped : α → Bool) (order : α → Nat) : Option (Nat × α) :=
  (l.filter (fun e => !popped e.2)).foldl (fun o e => match o with
    | none => some e
    | some x => if order e.2 < order x.2 then some e else some x) none
/-- Word S[D] of MQPOP. -/
def popHead (kind slot : Nat) (ctxid : BitVec 16) : Word :=
  BitVec.ofNat 32 (2 ^ 31 + kind * 2 ^ 28 + slot % 64 * 2 ^ 16 + ctxid.toNat)
/-- Whether a moored operation's failing access is its write. An operation stops at DONE, so the address tells the side of a copy; where
both sides are one address the read comes first, and a read does not fault WRITE. -/
def EngineOp.faultWrites (o : EngineOp) : Bool :=
  match o.kind with
  | 1 => !o.dScr && o.faddr == o.dst + BitVec.ofNat 64 o.done && (o.sScr || o.src != o.dst || o.fcode == kWRITE)
  | 3 => true
  | 2 => o.dirOut
  | 5 => true
  | _ => false
/-- Whether a moored operation's failing access is a combining add, which counts as an atomic (R144). -/
def EngineOp.combines (o : EngineOp) : Bool := o.kind == 5 && o.xop.extractLsb' 6 2 != 0#2
/-- The trap registers of a moored operation (R301, R339): the cause, kind and address of a MEMORY fault (DEDUCED, log 25). -/
def EngineOp.moorTrap (o : EngineOp) : Trap :=
  trap64 5 (BitVec.ofNat 32 (o.fcode % 16 + (if o.faultWrites then 512 else 0) + (if o.combines then 1024 else 0))) o.faddr 0
/-- Eight registers written from S[d]. -/
def Group.setRun (g : Group) (d : Nat) (l : List Word) : Group :=
  (List.range l.length).foldl (fun g k => g.setS (d + k) (l.getD k 0) false) g
/-- The registers TRAPCAUSE to TRAPUNFIN of a core loaded (R301). -/
def State.loadPopped (s : State) (c : Nat) (t : Trap) (vpc : DWord) (slot : Bool) : State :=
  s.modCore c (fun k => { k with popped := t, poppedVpc := vpc, poppedSlot := slot })
/-- The eight words of a mooring entry at a place. -/
def State.moorWords (s : State) (c place : Nat) (m : Moor) : List Word :=
  let b := m.blk.bind (fun n => aget? n s.blocks)
  let o := m.op.bind (s.op? c)
  let gid := ((s.group? m.key).map Group.gid).getD 0
  let second := match m.kind with
    | 1 => place + 256 * gid
    | 2 => place + 256 * ((o.map EngineOp.owner).getD 0 % 64) + (if (o.map EngineOp.gather).getD false then 2 ^ 14 else 0) +
        2 ^ 15 * ((o.bind EngineOp.slot).getD 0 % 1024)
    | _ => place
  let seq := BitVec.ofNat 64 m.seq
  [popHead m.kind ((b.map Block.slot).getD 0) ((b.map Block.ctxid).getD 0), BitVec.ofNat 32 second, lo32 seq, hi32 seq,
    BitVec.ofNat 32 m.linear, BitVec.ofNat 32 (if m.kind = 2 then (o.map EngineOp.done).getD 0 else 0), 0, 0]
/-- The eight words of a notice at a place; a host reply's tag stands beside the handle (DEDUCED, log 26). -/
def noticeWords (place : Nat) (n : Notice) : List Word :=
  let seq := BitVec.ofNat 64 n.seq
  [popHead n.kind n.slot n.ctxid, BitVec.ofNat 32 (128 + place) ||| (if n.kind = 6 then n.info <<< 8 else if n.kind = 4 then n.info else 0),
    lo32 seq, hi32 seq, BitVec.ofNat 32 n.linear, 0, if n.kind = 5 ∨ n.kind = 7 then lo32 n.addr else 0,
    if n.kind = 5 then hi32 n.addr else 0]
/-- What MQPOP takes: a notice or a mooring entry, at its place. -/
inductive Popped where
  | notice (place : Nat) (n : Notice)
  | moor (place : Nat) (m : Moor)
deriving DecidableEq, Repr
/-- The entry that MQPOP takes on a core, held from now on, with its trap registers loaded (R301): a notice first, then the oldest mooring
entry. -/
def State.popEntry (s : State) (c : Nat) : Option (Popped × State) :=
  match oldestPlace (s.core c).notices Notice.popped Notice.order with
  | some (place, n) =>
    let s1 := s.modCore c (fun k => { k with notices := aput place { n with popped := true } k.notices })
    some (.notice place n, s1.loadPopped c Trap.none 0 false)
  | none => (oldestPlace (s.core c).mq Moor.popped Moor.order).map (fun q =>
    let s1 := s.modCore c (fun k => { k with mq := aput q.1 { q.2 with popped := true } k.mq })
    let s2 := match q.2.kind with
      | 1 => match s.group? q.2.key with
        | some x => s1.loadPopped c x.trap x.trapVpc x.trapSlot
        | none => s1
      | 2 => match q.2.op.bind (s.op? c) with
        | some o => s1.loadPopped c o.moorTrap 0 false
        | none => s1
      | _ => s1.loadPopped c Trap.none 0 false
    (.moor q.1 q.2, s2))
/-- The eight words of a popped entry. -/
def State.poppedWords (s : State) (c : Nat) : Popped → List Word
  | .notice place n => noticeWords place n
  | .moor place m => s.moorWords c place m
/-- MQPOP (R301). -/
def execMqpop (r : RWord) (s : State) : Out State :=
  stateWord (.mqpop r) s (fun g _ =>
    match s.popEntry g.core with
    | some (p, s1) => .ok (s1.modGroup s.cur.key (fun h => h.setRun r.d.toNat (s.poppedWords g.core p)))
    | none => .ok (s.modGroup s.cur.key (fun h => h.setS r.d.toNat 0 false)))

/-! ## MQRPL (R302) -/

/-- The copy of a block call's results (R298): v1, v2 and p6 of the call's lane go to every LIVE lane of every arrived group, and every group
goes on after its SYSCALLB, which for one that has taken an entry since stands at SPC. -/
def State.callReturn (s : State) (g : Group) : State :=
  match g.blk with
  | none => s
  | some bn =>
    let l := lowLane g.trap.w1
    let arrived := ((aget? bn s.blocks).map Block.sysArrived).getD []
    let s1 := arrived.foldl (fun s (q : Nat × Nat) => s.modGroup (groupKey bn q.1) (fun h =>
      let one (h : Group) (i : Nat) : Group :=
        h.writeV i h.live (if (g.poisonV i).getLsbD l then h.live else 0) (fun _ => g.getV i l)
      let h1 := ((one (one h 1) 2).setP 6 h.live (if (g.getP 6).getLsbD l then BitVec.allOnes 32 else 0))
      if h1.inEntry && h1.wait != .syscallb && !(h1.gid == g.gid) then { h1 with spc := h1.spc + 8, sretry := Retry.none } else h1)) s
    (s1.modBlock bn (fun k => { k with sysArrived := [] })).departAll bn .syscallb
/-- A parked group resumes (R302): under NEXT the trapping slot has moved past its word. A group whose gang lost a member traps
GANG instead (R293). -/
def State.resumeGroup (s : State) (key : Nat) (next : Bool) : State :=
  match s.group? key with
  | none => s
  | some g =>
    let s0 := if next && g.trap.cause == 16 && g.trap.w0.getLsbD 12 then s.callReturn g else s
    let g0 := (s0.group? key).getD g
    let s0 := if next then { s0 with tagUses := s0.tagUses.filter (fun e => e.1 / 2 ^ 144 != slotKey key g.trapSlot) } else s0
    let g1 := g0.resume next
    match (s0.blockOf g).bind Block.lost with
    | some c => s0.takeTrapAt key g1 g.trapSlot (g1.pc g.trapSlot) { gangTrap c g1 with lanes := g1.mask g.trapSlot }
    | none => s0.setGroup key g1
/-- The status and the state of a reply on a popped mooring entry. -/
def State.moorReply (s : State) (c h : Nat) (e : Moor) (action kind : Nat) : Nat × State :=
  let o := e.op.bind (s.op? c)
  match e.kind, action with
  | 1, 0 => (0, (s.resumeGroup e.key false).freeHandle c h)
  | 1, 1 => (0, (s.resumeGroup e.key true).freeHandle c h)
  | 1, 2 => (0, (s.modGroup e.key (fun g => { g with state := .released })).freeHandle c h)
  | 2, 3 => (0, match o with
    | some o => (s.setOp c { o with state := 1, faddr := 0, fcode := 0 }).freeHandle c h
    | none => s.freeHandle c h)
  | 2, 4 => (0, match o with
    | some o => (s.failOp c o 3 kind o.faddr).freeHandle c h
    | none => s.freeHandle c h)
  | 3, 5 => (0, s.freeHandle c h)
  | _, _ => (2, s)
/-- MQRPL (R302): the status and the state, for a handle and an action word. -/
def State.mqReply (s : State) (c h x : Nat) : Nat × State :=
  let action := if x / 65536 = 0 then x % 16 else 15
  if h < 128 then
    match (aget? h (s.core c).mq).filter Moor.popped with
    | some e => s.moorReply c h e action (x / 256 % 256)
    | none => (1, s)
  else
    match (aget? (h - 128) (s.core c).notices).filter Notice.popped with
    | some _ => if action = 5 then (0, s.freeHandle c h) else (2, s)
    | none => (1, s)
/-- MQRPL (R302): the action stands in S[B]. -/
def mqrpl (i : Instr) (r : RWord) (s : State) : Out State :=
  stateWord i s (fun g _ => do
    let q := s.mqReply g.core (g.getS r.a.toNat).toNat (g.getS r.b.toNat).toNat
    pure (q.2.status r.d.toNat q.1))
/-- MQRPL with RETRY (R302). -/
def execMqrplRetry (r : RWord) (s : State) : Out State := mqrpl (.mqrplRetry r) r s
/-- MQRPL with NEXT (R302). -/
def execMqrplNext (r : RWord) (s : State) : Out State := mqrpl (.mqrplNext r) r s
/-- MQRPL with PARK (R302). -/
def execMqrplPark (r : RWord) (s : State) : Out State := mqrpl (.mqrplPark r) r s
/-- MQRPL with RESUME (R302). -/
def execMqrplResume (r : RWord) (s : State) : Out State := mqrpl (.mqrplResume r) r s
/-- MQRPL with FAIL (R302). -/
def execMqrplFail (r : RWord) (s : State) : Out State := mqrpl (.mqrplFail r) r s
/-- MQRPL with ACK (R302). -/
def execMqrplAck (r : RWord) (s : State) : Out State := mqrpl (.mqrplAck r) r s

/-! ## VSRD, VSWR (R303) -/

/-- The group and the block of a popped entry. -/
def State.entryGroup (s : State) (c h : Nat) : Option (Nat × Group) :=
  match (aget? h (s.core c).mq).filter (fun e => e.popped && (e.kind == 1 || e.kind == 2)) with
  | some e => if h < 128 then (s.group? e.key).map (fun g => (e.key, g)) else none
  | none => none
/-- VSRD (R303): the word and its status; a word that the device does not specify is a free value (DESIGN CHOICE, log 5). -/
def State.vsRead (s : State) (c h x : Nat) : (Word × Nat) × State :=
  let free (o : Option Word) : (Word × Nat) × State := match o with
    | some w => ((w, 0), s)
    | none => ((Config.freeWord s.freeCtr, 0), s.takeFree 1)
  let n := x % 2 ^ 22
  match s.entryGroup c h with
  | none => ((0, 1), s)
  | some (_, g) =>
    if x / 2 ^ 22 % 512 ≠ 0 then ((0, 2), s)
    else if x < 2 ^ 31 then (if g.hasWord n then free (s.groupWordAt g n) else ((0, 2), s))
    else match g.blk, s.blockOf g with
      | some bn, some b => if s.blockHasWord bn b n then free (s.blockWordAt bn b n) else ((0, 2), s)
      | _, _ => ((0, 1), s)
/-- VSRD (R303). -/
def execVsrd (r : RWord) (s : State) : Out State :=
  stateWord (.vsrd r) s (fun g _ => do
    let q := s.vsRead g.core (g.getS r.a.toNat).toNat (g.getS r.b.toNat).toNat
    pure (q.2.modGroup s.cur.key (fun h => (h.setS r.d.toNat q.1.1 false).setS (r.d.toNat + 1) (BitVec.ofNat 32 q.1.2) false)))
/-- VSWR (R303): the status and the state. -/
def State.vsWrite (s : State) (c h x : Nat) (w : Word) : Nat × State :=
  let n := x % 2 ^ 22
  match s.entryGroup c h with
  | none => (1, s)
  | some (key, g) =>
    if x / 2 ^ 22 % 512 ≠ 0 then (2, s)
    else if 2 ^ 31 ≤ x then
      match g.blk, s.blockOf g with
      | some bn, some b => if s.blockHasWord bn b n then (3, s) else (2, s)
      | _, _ => (1, s)
    else if !g.hasWord n then (2, s)
    else if 192 ≤ n ∧ n < 704 then
      match s.setStackWord key g (n - 192) w with
      | some s' => (0, s')
      | none => (3, s)
    else match g.setWord n w with
      | some g' => (0, s.setGroup key g')
      | none => (3, s)
/-- VSWR (R303). -/
def execVswr (r : RWord) (s : State) : Out State :=
  stateWord (.vswr r) s (fun g _ => do
    let q := s.vsWrite g.core (g.getS r.a.toNat).toNat (g.getS r.b.toNat).toNat (g.getS r.c.toNat)
    pure (q.2.status r.d.toNat q.1))

/-! ## Control registers (R289, R290, R304, R389) -/

/-- The value of a control register. -/
def State.csrRead (s : State) (c n : Nat) : Word :=
  let k := s.core c
  match n with
  | 0x000 => if k.nest then 1 else 0
  | 0x001 => lo32 k.svec
  | 0x002 => hi32 k.svec
  | 0x003 => lo32 k.sepc
  | 0x004 => hi32 k.sepc
  | 0x005 => BitVec.ofNat 32 k.scause
  | 0x006 => k.sdetail.1
  | 0x007 => k.sdetail.2.1
  | 0x008 => k.sdetail.2.2
  | 0x010 => BitVec.ofNat 32 k.popped.cause
  | 0x011 => k.popped.w0
  | 0x012 => k.popped.w1
  | 0x013 => k.popped.w2
  | 0x014 => k.popped.lanes
  | 0x015 => lo32 k.poppedVpc
  | 0x016 => hi32 k.poppedVpc
  | 0x017 => if k.poppedSlot then 1 else 0
  | 0x018 => k.popped.unfin
  | 0x020 => lo32 k.ctxbase
  | 0x021 => hi32 k.ctxbase
  | 0x022 => BitVec.ofNat 32 k.scale
  | 0x023 => BitVec.ofNat 32 (s.part k.part).linktmo
  | 0x024 => BitVec.ofNat 32 k.mq.length
  | 0x025 => BitVec.ofNat 32 (k.notices.filter (fun e => !e.2.popped)).length
  | 0x026 => BitVec.ofNat 32 c
  | _ => 0
/-- A partition's watchdog restarted (R389): WDT seconds of the tick. -/
def State.petWatchdog (s : State) (part : Nat) : State :=
  s.modPart part (fun p => { p with wdDeadline := s.tick + BitVec.ofNat 64 (p.info.wdt * 1000000000) })
/-- A control register written: reserved bits are ignored, and a reserved value leaves its field unchanged (R4, R290). -/
def State.csrWrite (s : State) (c n : Nat) (x : Word) : State :=
  match n with
  | 0x000 => s.modCore c (fun k => { k with nest := x.getLsbD 0 })
  | 0x001 => s.modCore c (fun k => { k with svec := setHalf k.svec false (x &&& ~~~7) })
  | 0x002 => s.modCore c (fun k => { k with svec := setHalf k.svec true x })
  | 0x003 => s.modCore c (fun k => { k with sepc := setHalf k.sepc false x })
  | 0x004 => s.modCore c (fun k => { k with sepc := setHalf k.sepc true x })
  | 0x005 => s.modCore c (fun k => { k with scause := x.toNat % 32 })
  | 0x006 => s.modCore c (fun k => { k with sdetail := (x, k.sdetail.2) })
  | 0x007 => s.modCore c (fun k => { k with sdetail := (k.sdetail.1, x, k.sdetail.2.2) })
  | 0x008 => s.modCore c (fun k => { k with sdetail := (k.sdetail.1, k.sdetail.2.1, x) })
  | 0x020 => s.modCore c (fun k => { k with ctxbase := setHalf k.ctxbase false (x &&& ~~~0xFFF) })
  | 0x021 => s.modCore c (fun k => { k with ctxbase := setHalf k.ctxbase true x })
  | 0x022 => s.modCore c (fun k => { k with scale := if x.toNat % 8 ≤ 4 then x.toNat % 8 else k.scale })
  | 0x023 => s.modPart (s.core c).part (fun p =>
      { p with linktmo := if 1 ≤ x.toNat % 1024 ∧ x.toNat % 1024 ≤ 1000 then x.toNat % 1024 else p.linktmo })
  | 0x027 => s.petWatchdog (s.core c).part
  | _ => s
/-- CSRRD (R304). -/
def execCsrrd (r : IWord) (s : State) : Out State :=
  groupWord (.csrrd r) s (fun g m => .ok (g.writeV r.d.toNat m 0 (fun _ => s.csrRead g.core r.imm.toNat)))
/-- A write of a control register: vA of lane 0. -/
def csrWord (i : Instr) (r : IWord) (s : State) : Out State :=
  stateWord i s (fun g m => .ok (s.csrWrite g.core r.imm.toNat (g.getV r.a.toNat (lowLane m))))
/-- CSRWR (R304). -/
def execCsrwr (r : IWord) (s : State) : Out State := csrWord (.csrwr r) r s
/-- WDPET (R389): a CSRWR to register 0x027. -/
def execWdpet (r : IWord) (s : State) : Out State := csrWord (.wdpet r) r s

/-! ## SWAPOUT, SWAPIN (R308, R309) -/

/-- The block in a slot of a core. -/
def State.blockInSlot (s : State) (c slot : Nat) : Option (Nat × Block) := s.blocks.find? (fun e => e.2.core == c && e.2.slot == slot)
/-- The rest of a gang is asked to follow a member that has left (R244). -/
def State.followGang (s : State) (b : Block) (mode : Nat) : State :=
  let gang := s.gangOf b.part b.seq
  if mode = 2 || gang = 0 then s else s.recallGang b.part b.seq (b.linear / gang) 1
/-- The next of the steps by which a block leaves its core otherwise than by a SWAPOUT that waits for them (R308): it stops, its accesses
settle, a publish runs, its posted writes are acknowledged, and it is swapped out, which the Bool says; none where a step waits. -/
def State.swapStep (s : State) (bn : Nat) (b : Block) (mode : Nat) : Option (State × Bool) :=
  let c := b.core
  if s.heldHandle c bn then none
  else if !b.stopped then some (s.modBlock bn (fun k => { k with stopped := true }), false)
  else if s.blockBusy bn then none
  else if !(s.core c).dirtySectors.isEmpty then some (s.publish c, false)
  else if s.postedOut c b.ctxid then none
  else some (s.swapOut bn b mode, true)
/-- SWAPOUT (R308): the mode stands in S[B]. The block's groups stop, and the word waits until its accesses are settled and its
posted writes acknowledged. -/
def swapout (i : Instr) (r : RWord) (s : State) : Out State :=
  stateWord i s (fun g _ => do
    let c := g.core
    let mode := (g.getS r.b.toNat).toNat
    match s.blockInSlot c (g.getS r.a.toNat).toNat with
    | none => pure (s.status r.d.toNat 1)
    | some (bn, b) =>
      if s.heldHandle c bn then pure (s.status r.d.toNat 2)
      else if 2 < mode then pure (s.status r.d.toNat 3)
      else
        let s1 := s.modBlock bn (fun k => { k with stopped := true })
        if s1.blockBusy bn then throw (.wait s1 (.drain bn))
        let s2 := s1.publish c
        if s2.postedOut c b.ctxid then throw (.wait s2 (.posted b.ctxid.toNat))
        match aget? bn s2.blocks with
        | some b2 => pure (((s2.swapOut bn b2 mode).followGang b2 mode).status r.d.toNat 0)
        | none => pure (s2.status r.d.toNat 1))
/-- SWAPOUT to the return list (R308). -/
def execSwapoutReturn (r : RWord) (s : State) : Out State := swapout (.swapoutReturn r) r s
/-- SWAPOUT of a stopped block (R308). -/
def execSwapoutStop (r : RWord) (s : State) : Out State := swapout (.swapoutStop r) r s
/-- SWAPOUT that discards the block (R308). -/
def execSwapoutDiscard (r : RWord) (s : State) : Out State := swapout (.swapoutDiscard r) r s
/-- SWAPIN of the block that a core's KIND 5 notice names (R309): the status and the state. A block whose record does not match is lost,
with a unit that the spec does not state (DESIGN CHOICE, log 5). -/
def State.swapinBlock (s : State) (c bn : Nat) : Nat × State :=
  match (aget? bn (s.core c).reserve).bind (fun x => (s.grid? x.part x.seq).map (fun gr => (x, gr))) with
  | none => (1, s)
  | some (x, gr) =>
    let img : Image := { part := x.part, at' := x.entry.recAddr }
    if s.recordOk img x.seq then (0, s.swapIn c bn x gr)
    else
      let b := s.loadBlock img c x.slot gr x.entry.linear false
      let s1 := (s.modCore c (fun k => { k with reserve := adel bn k.reserve })).takeFree 1
      (2, s1.loseBlock b (Config.freeNat s.freeCtr) c)
/-- SWAPIN (R309). -/
def execSwapin (r : RWord) (s : State) : Out State :=
  stateWord (.swapin r) s (fun g _ => do
    let c := g.core
    let h := (g.getS r.a.toNat).toNat
    let n := if h < 128 then none else (aget? (h - 128) (s.core c).notices).filter (fun n => n.popped && n.kind == 5)
    match n.bind Notice.blk with
    | none => pure (s.status r.d.toNat 1)
    | some bn =>
      let q := s.swapinBlock c bn
      pure (q.2.status r.d.toNat q.1))

/-! ## HQPUT (R310, R370) -/

/-- A 64-byte message put into the host service queue of a partition: 0 done, 1 full, 2 port down. -/
def State.hsqPut (s : State) (part : Nat) (bytes : List Byte) : Nat × State :=
  let p := s.part part
  let n := p.hsqsize.toNat
  if !s.hostUp then (2, s)
  else if n = 0 ∨ (p.hsqtail.toNat + 1) % n = p.hsqhead.toNat % n then (1, s)
  else (0, (s.modPart part (fun p => { p with hsqtail := BitVec.ofNat 64 ((p.hsqtail.toNat + 1) % n) })).send
    (.hsq part (p.hsqbase + BitVec.ofNat 64 (64 * p.hsqtail.toNat)) bytes))
/-- HQPUT (R310): the message is read as a supervisor's access of context 0; an address that is no multiple of 64 traps ALIGN
(DEDUCED, log 27). -/
def execHqput (r : RWord) (s : State) : Out State :=
  stateWord (.hqput r) s (fun g m => do
    let a := g.getS64 r.a.toNat
    if a.toNat % 64 ≠ 0 then throw (.trap (trap64 6 (BitVec.ofNat 32 (16 * lowLane m + 4096 * 6)) a m))
    let s1 := s.publish g.core
    match s1.ctx0Read (s.core g.core).part a 64 with
    | .error e => throw (.trap (memoryTrap e.1 (lowLane m) false false e.2 m m))
    | .ok l =>
      let q := s1.hsqPut (s.core g.core).part l
      pure (q.2.status r.d.toNat q.1))

/-! ## Signals (R283, R311) -/

/-- FLAGS of a descriptor written. -/
def State.setFlags (s : State) (c : Nat) (ctxid : BitVec 16) (flags : Nat) : State := s.setDesc c ctxid 0x0C flags 1
/-- The resident blocks of a context in a partition. -/
def State.ctxBlocks (s : State) (part : Nat) (ctxid : BitVec 16) : List (Nat × Block) :=
  s.blocks.filter (fun e => e.2.part == part && e.2.ctxid == ctxid)
/-- STOP (R311): every resident group stops at its next commit boundary, and each block waits for its swap. -/
def State.stopCtx (s : State) (c : Nat) (ctxid : BitVec 16) (d : Desc) : State :=
  let bs := s.ctxBlocks d.part ctxid
  bs.foldl (fun s e =>
    let s1 := s.modBlock e.1 (fun k => { k with stopped := true })
    if s1.requested e.2.core e.1 then s1 else s1.requestSwap e.1 e.2 3) (s.setFlags c ctxid (d.flags ||| 4))
/-- CONT (R311). The blocks of an orphan stay held, for the CONT that follows its RECLAIM (R382). -/
def State.contCtx (s : State) (c : Nat) (ctxid : BitVec 16) (d : Desc) : State :=
  let s1 := s.setFlags c ctxid (d.flags &&& 0xFB)
  if d.orphaned then s1
  else
  { s1 with hostOrphans := adel ctxid.toNat s1.hostOrphans,
            blocks := s1.blocks.map (fun (e : Nat × Block) =>
              if e.2.part == d.part && e.2.ctxid == ctxid then (e.1, { e.2 with stopped := false }) else e),
            grids := s1.grids.map (fun (e : Nat × Grid) =>
              if e.2.part == d.part && e.2.ctxid == ctxid then
                (e.1, { e.2 with returns := e.2.returns.map (fun x => { x with held := false }) })
              else e) }
/-- Lowered units for which a condition holds are removed (R352, R353), and the slots of the partition read their code afresh; a share that
was exhausted has room again. -/
def State.dropUnits (s : State) (part : Nat) (f : CodeUnit → Bool) : State :=
  (if s.units.any (fun u => u.part == part && f u) then
    { s with units := s.units.filter (fun u => !(u.part == part && f u)), exhausted := setDel part s.exhausted }
  else s).forgetCode part
/-- The first part of KILL (R162, R308, R311): the context's resident blocks stop, and a publish runs on their cores. -/
def State.killStop (s : State) (ctxid : BitVec 16) (d : Desc) : State :=
  (s.ctxBlocks d.part ctxid).foldl (fun s e => (s.modBlock e.1 (fun k => { k with stopped := true })).publish e.2.core) s
/-- What the discard of a context's blocks awaits (R160 step 3, R308 step 2): the link requests of the context that are outstanding. -/
def State.killTags (s : State) (ctxid : BitVec 16) (d : Desc) : List Nat :=
  (s.requests.filter (fun e => e.2.ctxid == ctxid && e.2.kind != .prefetch && (s.core e.2.core).part == d.part)).map Prod.fst
/-- The rest of KILL (R311, R353, R362, R373): the context's grids end, its blocks are discarded, its operations cancelled, its entries
and notices withdrawn, its endpoints retired, and its translations, breakpoints and doorbells removed. -/
def State.killCtx (s : State) (c : Nat) (ctxid : BitVec 16) (d : Desc) : State :=
  let mine (e : Nat × Grid) : Bool := e.2.part == d.part && e.2.ctxid == ctxid
  let s1 := (s.ctxBlocks d.part ctxid).foldl (fun s e => s.swapOut e.1 e.2 2) s
  let keys := (s1.grids.filter mine).map Prod.fst
  let gone (n : Notice) : Bool := (n.kind == 4 || n.kind == 5) && n.ctxid == ctxid
  let s2 := { s1 with
    grids := s1.grids.map (fun (e : Nat × Grid) =>
      if mine e then (e.1, { e.2 with live := false, killed := true, returns := [], replays := [] }) else e),
    ballast := s1.ballast.filter (fun e => !keys.contains (e.1 / 2 ^ 32)),
    cores := s1.cores.map (fun (e : Nat × Core) => (e.1, { e.2 with
      reserve := e.2.reserve.filter (fun r => !keys.contains (gridKey r.2.part r.2.seq)),
      mq := e.2.mq.filter (fun m => !(m.2.kind == 3 && e.2.part == d.part && keys.contains (gridKey d.part m.2.seq))),
      notices := if e.2.part == d.part then e.2.notices.filter (fun n => !gone n.2) else e.2.notices,
      noticeWait := if e.2.part == d.part then e.2.noticeWait.filter (fun n => !gone n) else e.2.noticeWait,
      deferred := if e.2.part == d.part then adel ctxid.toNat e.2.deferred else e.2.deferred })),
    breakpoints := s1.breakpoints.filter (fun e => e.1 / 4 != 65536 * d.part + d.asid),
    awaits := s1.awaits.filter (fun e => !keys.contains (gridKey e.2.part e.2.seq)),
    doorbells := s1.doorbells.filter (fun e => e.2.ctxid != ctxid),
    regions := s1.regions.filter (fun r => r.ctxid != ctxid),
    objects := s1.objects.filter (fun o => o.ctxid != ctxid),
    hostOrphans := adel ctxid.toNat s1.hostOrphans }
  let s3 := s2.modPart d.part (fun p => { p with enlists := p.enlists.filter (fun x => !keys.contains (gridKey d.part x.seq)) })
  let s3 := s3.cores.foldl (fun s e => s.drainNotices e.1 32) s3
  let s4 := (s3.retireEps c ctxid (fun r => r.st == 1)).dropUnits d.part (fun u => u.asid.toNat == d.asid)
  s4.setFlags c ctxid (d.flags &&& 0xFE)
/-- A signal posted to a context (R311): the status, or the requests that KILL awaits first, and the state. -/
def State.signal (s : State) (c : Nat) (ctxid : Nat) (x : Nat) : Except (List Nat) Nat × State :=
  let id := BitVec.ofNat 16 ctxid
  match (if 65536 ≤ ctxid then none else s.desc c id) with
  | none => (.ok 1, s)
  | some d =>
    if 66 < x then (.ok 2, s)
    else if x = 64 then (.ok 0, s.stopCtx c id d)
    else if x = 65 then (.ok 0, s.contCtx c id d)
    else if x = 66 then
      let s1 := s.killStop id d
      match s1.killTags id d with
      | [] => (.ok 0, s1.killCtx c id d)
      | l => (.error l, s1)
    else (.ok 0, s.userSignal c id x)
/-- SIGPOST (R311): the signal stands in S[B]. -/
def sigpost (i : Instr) (r : RWord) (s : State) : Out State :=
  stateWord i s (fun g _ => do
    let q := s.signal g.core (g.getS r.a.toNat).toNat (g.getS r.b.toNat).toNat
    match q.1 with
    | .ok st => pure (q.2.status r.d.toNat st)
    | .error l => throw (.wait q.2 (.tags l)))
/-- SIGPOST of a user signal (R311). -/
def execSigpostUser (r : RWord) (s : State) : Out State := sigpost (.sigpostUser r) r s
/-- SIGPOST of STOP (R311). -/
def execSigpostStop (r : RWord) (s : State) : Out State := sigpost (.sigpostStop r) r s
/-- SIGPOST of CONT (R311). -/
def execSigpostCont (r : RWord) (s : State) : Out State := sigpost (.sigpostCont r) r s
/-- SIGPOST of KILL (R311). -/
def execSigpostKill (r : RWord) (s : State) : Out State := sigpost (.sigpostKill r) r s

/-! ## Spatial pre-emption (R257, R312) -/

/-- The rank by which cores are chosen: the highest resident priority class, counted from 1, and 0 for none. -/
def State.coreRank (s : State) (c : Nat) : Nat :=
  ((s.blocks.filter (fun e => e.2.core == c)).map (fun e => ((s.gridOf e.2).map (fun g => g.prio + 1)).getD 0)).foldl max 0
/-- The n cores of a partition that a request takes: lowest rank first, and among equals the highest number. -/
def State.chooseCores (s : State) (part n : Nat) : List Nat :=
  let l := s.healthy part
  (((List.range 9).flatMap (fun k => (l.filter (fun c => s.coreRank c == k)).reverse)).take n)
/-- A chosen core is vacated: promised blocks go back, each gang as a whole, its enlistments end, and each resident block is asked to swap out. A core of several
requests stays held until the last is released. -/
def State.vacate (s : State) (id h c : Nat) : State :=
  let s1 := s.unpromise c 2
  let s1 := s1.modPart (s.core c).part (fun p => { p with enlists := p.enlists.map (fun e => { e with cores := e.cores.erase c }) })
  let s2 := s1.modCore c (fun k => { k with hold := k.hold ++ [(id, h)], vacating := s.blocks.any (fun e => e.2.core == c) })
  (s2.blocks.filter (fun e => e.2.core == c)).foldl (fun s e =>
    if s.requested e.2.core e.1 then s else s.requestSwapAll e.1 e.2 2) s2
/-- The cores held by a request are released. -/
def State.releaseCores (s : State) (part id : Nat) : State :=
  ({ s with cores := s.cores.map (fun (e : Nat × Core) =>
      if e.2.part == part && e.2.hold.any (fun (q : Nat × Nat) => q.1 == id) then
        let l := e.2.hold.filter (fun (q : Nat × Nat) => q.1 != id)
        (e.1, { e.2 with hold := l, vacating := e.2.vacating && !l.isEmpty })
      else e) }).modPart
    part (fun p => { p with preempts := p.preempts.filter (fun q => q.id != id) })
/-- A pre-emption request or release (R312): status, request id, state. -/
def State.preempt (s : State) (x rel : Nat) : Nat × Nat × State :=
  let n := x % 256
  let h := x / 256 % 8
  let part := x / 4096 % 8
  if s.parts.length ≤ part then (1, 0, s)
  else if x / 32768 % 2 = 1 then
    if (s.part part).preempts.any (fun q => q.id == rel) then (0, 0, s.releaseCores part rel) else (3, 0, s)
  else if n = 0 ∨ (s.healthy part).length < n ∨ h = 0 then (2, 0, s)
  else
    let id := (s.part part).nextReq
    let cores := s.chooseCores part n
    let s1 := cores.foldl (fun s c => s.vacate id h c) s
    (0, id, s1.modPart part (fun p => { p with preempts := p.preempts ++ [{ id, cores, hold := h }], nextReq := id + 1 }))
/-- PREEMPT (R312): REL in S[A] chooses request or release. -/
def preemptWord (i : Instr) (r : RWord) (s : State) : Out State :=
  stateWord i s (fun g _ => do
    let q := s.preempt (g.getS r.a.toNat).toNat (g.getS r.b.toNat).toNat
    pure ((q.2.2.status r.d.toNat q.1).status (r.d.toNat + 1) q.2.1))
/-- PREEMPT (R312). -/
def execPreempt (r : RWord) (s : State) : Out State := preemptWord (.preempt r) r s
/-- PREEMPT with REL = 1 (R312); the same word, whose release is a bit of an operand's value. -/
def execPreemptRelease (r : RWord) (s : State) : Out State := preemptWord (.preempt r) r s

/-! ## Events of the mooring queue, and calls that the firmware serves (R299, R410, R411) -/

/-- MOORING_ENTRY_TAKE (R291): a group that stalls for want of an entry takes one that has come free. -/
def execMooringEntryTake (core : Nat) (s : State) : Out State :=
  let s1 := s.drainMoor core
  if (s1.core core).mq.length = (s.core core).mq.length then .fault .notNow else .next s1
/-- The parked group and the number of the call that an entry holds. -/
def State.callOf (s : State) (c h : Nat) : Option (Nat × Group × Nat) :=
  match (aget? h (s.core c).mq).filter (fun e => e.kind == 1) with
  | none => none
  | some e => match (s.group? e.key).filter (fun g => g.parked && g.trap.cause == 16) with
    | some g => some (e.key, g, g.trap.w0.toNat % 4096)
    | none => none
/-- The result of one lane: v1, v2 where the call returns one, and p6; the written registers are unpoisoned (R303). -/
def Group.result (g : Group) (l : Nat) (v1 : Word) (v2 : Option Word) (ok : Bool) : Group :=
  let bit : Mask := 1#32 <<< l
  let put (g : Group) (i : Nat) (x : Word) : Group := (g.setV i l x).setPoisonV i bit 0
  let g1 := put g 1 v1
  let g2 := match v2 with
    | some x => put g1 2 x
    | none => g1
  g2.setP 6 bit (if ok then bit else 0)
/-- A call served for its lanes in ascending order, and the group resumed with NEXT (R297). -/
def State.serveCall (s : State) (c h : Nat) (key : Nat) (lanes : Mask) (f : State → Group → Nat → State × Group) : State :=
  let s1 := (Mask.toLanes lanes).foldl (fun s l => match s.group? key with
    | some g => let q := f s g l; q.1.setGroup key q.2
    | none => s) s
  (s1.resumeGroup key true).freeHandle c h
/-- A call that a firmware event serves, of a number that it accepts. -/
def serveWith (c h : Nat) (s : State) (ok : Nat → Bool) (f : State → Group → Nat → State × Group) : Out State :=
  match s.callOf c h with
  | none => .fault .noTarget
  | some (key, g, n) => if ok n then .next (s.serveCall c h key g.trap.w1 f) else .fault .notNow
/-- The CTXID of a group. -/
def State.ctxOf (s : State) (g : Group) : BitVec 16 := ((s.blockOf g).map Block.ctxid).getD 0
/-- CALL_GETID (R299); an unknown number gives p6 false and v1 = 1. -/
def execCallGetid (core handle : Nat) (s : State) : Out State :=
  serveWith core handle s (fun n => n == 1 || n == 0 || (4 < n && n < 0x800)) (fun s g l =>
    if g.trap.w0.toNat % 4096 = 1 then
      (s, g.result l (BitVec.ofNat 32 (s.ctxOf g).toNat) (some (BitVec.ofNat 32 s.chip)) true)
    else (s, g.result l 1 none false))
/-- The 64-bit argument of a call in a pair of lane registers. -/
def Group.arg64 (g : Group) (i l : Nat) : DWord := pair (g.getV i l) (g.getV (i + 1) l)
/-- Whether [a, a + n) is free of the regions and present pages of a context. -/
def State.spaceFree (s : State) (w : Who) (a : DWord) (n : Nat) : Bool :=
  !s.regions.any (fun r => r.part == w.part && r.ctxid == w.ctxid && decide ((a - r.base).toNat < r.len ∨ (r.base - a).toNat < n)) &&
    (List.range (n / 65536)).all (fun k => (List.range 16).all (fun j =>
      match s.walk w.part w.ctxid w.asid w.root (va57 (a + BitVec.ofNat 64 (65536 * k + 4096 * j))) false with
      | .ok _ => false
      | .error _ => true))
/-- The device memory of a partition that the firmware can give out: its stacks without the 512 MiB of its reserve (R321, R386). -/
def State.partBytes (s : State) (part : Nat) : Nat :=
  ((List.range 8).filter (fun k => (s.part part).info.stk.getLsbD k)).length * 0xC00000000 - 0x20000000
/-- The pages present under a table of level lvl that maps addresses from va on: their 57-bit addresses and sizes. -/
def State.presentPages (s : State) (va lvl table : Nat) : List (Nat × Nat) :=
  (List.range 512).flatMap (fun k =>
    let e := s.physNat (table + 8 * k) 8
    let a := va + k * 2 ^ (12 + 9 * lvl)
    if e % 2 = 0 then []
    else match lvl with
      | 0 => [(a, 4096)]
      | l + 1 => if pte e 10 2 != 0 then [(a, 2 ^ (12 + 9 * lvl))] else s.presentPages a l (pte e 12 40 * 4096))
/-- Whether a context's free space can hold n bytes beside its regions and its present pages (R411): a run of 64 KiB pages within one half
of the canonical addresses. -/
def State.spaceHolds (s : State) (w : Who) (n : Nat) : Bool :=
  let regions : List (Nat × Nat) := (s.regions.filter (fun r => r.part == w.part && r.ctxid == w.ctxid)).map (fun r => (va57 r.base, r.len))
  let mine := regions ++ (s.presentPages 0 4 w.root).map (fun q => (q.1 / 65536 * 65536, (q.1 % 65536 + q.2 + 65535) / 65536 * 65536))
  let free (a : Nat) : Bool := (a + n ≤ 2 ^ 56 || (2 ^ 56 ≤ a && a + n ≤ 2 ^ 57)) && mine.all (fun r => a + n ≤ r.1 || r.1 + r.2 ≤ a)
  ([0, 2 ^ 56] ++ mine.map (fun (r : Nat × Nat) => r.1 + r.2)).any free
/-- What the DMAP regions of a partition's contexts have taken of its device memory. -/
def State.mappedBytes (s : State) (part : Nat) : Nat := ((s.regions.filter (fun r => r.part == part)).map Region.len).sum
/-- CALL_DMAP (R411): the firmware places the regions from `base` on; a length of 0, and one that the context's free space or the
partition's memory cannot hold, fail. -/
def execCallDmap (core handle : Nat) (base : BitVec 64) (s : State) : Out State :=
  let place (s : State) (g : Group) : DWord :=
    (s.regions.filter (fun r => r.part == (s.core core).part && r.ctxid == s.ctxOf g && base ≤ r.base)).foldl
      (fun a r => if a ≤ r.base then r.base + BitVec.ofNat 64 r.len else a) base
  let part := (s.core core).part
  let big (s : State) (g : Group) (n : Nat) : Bool :=
    n == 0 || s.partBytes part < s.mappedBytes part + n || !s.spaceHolds (s.whoGroup g) n
  let fits (s : State) (g : Group) (l : Nat) : Bool :=
    let n := ((g.arg64 1 l).toNat + 65535) / 65536 * 65536
    let a := place s g
    big s g n || (a.toNat % 65536 == 0 && canonical a && canonical (a + BitVec.ofNat 64 (n - 1)) && s.spaceFree (s.whoGroup g) a n)
  let serve (s : State) (g : Group) (l : Nat) : State × Group :=
    let n := ((g.arg64 1 l).toNat + 65535) / 65536 * 65536
    let a := place s g
    if n = 0 then (s, g.result l 2 none false)
    else if big s g n then (s, g.result l 3 none false)
    else
      let x : Region := { part, ctxid := s.ctxOf g, base := a, len := n, writable := (g.getV 3 l).getLsbD 0, backed := [] }
      ({ s with regions := s.regions ++ [x] }, g.result l (lo32 a) (some (hi32 a)) true)
  match s.callOf core handle with
  | none => .fault .noTarget
  | some (_, g, n) =>
    let ok := ((Mask.toLanes g.trap.w1).foldl (fun (q : State × Bool) l => ((serve q.1 g l).1, q.2 && fits q.1 g l)) (s, true)).2
    if n = 2 ∧ ok then serveWith core handle s (fun _ => true) serve else .fault .notNow
/-- CALL_SIGMASK (R299): the signals that come unmasked are delivered. -/
def execCallSigmask (core handle : Nat) (s : State) : Out State :=
  serveWith core handle s (fun n => n == 4) (fun s g l =>
    let x := s.ctxOf g
    match s.rawDesc core x with
    | none => (s, g.result l 0 (some 0) true)
    | some d =>
      let new := (d.sigmask ||| g.arg64 1 l) &&& ~~~(g.arg64 3 l)
      let due := d.sigpend &&& ~~~new
      let s1 := (s.setDesc core x 0x28 new.toNat 8).setDesc core x 0x30 (d.sigpend &&& new).toNat 8
      let s2 := (List.range 64).foldl (fun s k => if due.getLsbD k then s.deliver core x k else s) s1
      (s2, g.result l (lo32 d.sigmask) (some (hi32 d.sigmask)) true))
/-! ## The host service queue as the firmware uses it (R310, R339, R410) -/

/-- A 64-byte host service message of a type with a body (R310). -/
def hsqMessage (tag type : Nat) (body : List Byte) : List Byte :=
  leBytes tag 4 ++ leBytes type 2 ++ leBytes 48 2 ++ leBytes (Config.replyBuffer tag).toNat 8 ++ body ++ List.replicate (48 - body.length) 0
/-- The next tag of the firmware's messages: a number that no message awaiting a reply has. -/
def State.freshTag (s : State) : Nat := s.nextAwait % 2 ^ 32
/-- The body of a forwarded call's message for a lane (R410). -/
def State.callBody (s : State) (g : Group) (l : Nat) : List Byte :=
  let b := s.blockOf g
  leBytes (g.trap.w0.toNat % 4096) 2 ++ leBytes l 1 ++ leBytes (if g.trap.w0.getLsbD 12 then 1 else 0) 1 ++ leBytes (s.ctxOf g).toNat 2 ++
    leBytes 0 2 ++ leBytes ((b.map Block.seq).getD 0) 8 ++ (List.range 8).flatMap (fun i => leBytes (g.getV (1 + i) l).toNat 4)
/-- The TYPE of the message that an await stands for: a fault on a page, or a forwarded call. -/
def Await.type (a : Await) : Nat := if 32 ≤ a.lane then 1 else 3
/-- A message that awaits a reply sent under a tag, where the queue takes it (R310). -/
def State.sendAwait (s : State) (c tag : Nat) (a : Await) : State :=
  let q := s.hsqPut (s.core c).part (hsqMessage tag a.type a.body)
  { q.2 with awaits := aput tag { a with sent := q.1 == 0 } q.2.awaits }
/-- A new message that awaits a reply, for a group's entry or, with `op`, for an engine operation's. -/
def State.newAwait (s : State) (c : Nat) (g : Group) (op : Option (Bool × Nat)) (lane : Nat) (body : List Byte) : State :=
  let b := s.blockOf g
  { s with nextAwait := s.nextAwait + 1 }.sendAwait c s.freshTag
    { part := (s.core c).part, seq := (b.map Block.seq).getD 0, linear := (b.map Block.linear).getD c, gid := g.gid, op, lane, body,
      sent := false, reply := none }
/-- Whether an await is for a group of a core, or its engine operation. -/
def State.awaitFor (s : State) (a : Await) (g : Group) (op : Option (Bool × Nat)) : Bool :=
  let b := s.blockOf g
  a.part == (s.core g.core).part && a.seq == (b.map Block.seq).getD 0 && a.linear == (b.map Block.linear).getD g.core && a.gid == g.gid &&
    a.op == op
/-- The message of a lane sent, where the queue takes it (R410). -/
def State.forwardLane (s : State) (c : Nat) (g : Group) (l : Nat) : State := s.newAwait c g none l (s.callBody g l)
/-- CALL_FORWARDED (R410): the message of the lane in turn. -/
def execCallForwarded (core handle : Nat) (s : State) : Out State :=
  match s.callOf core handle with
  | none => .fault .noTarget
  | some (_, g, n) =>
    if n < 0x800 then .fault .notNow
    else match s.awaits.find? (fun e => s.awaitFor e.2 g none) with
      | none => .next (s.forwardLane core g (lowLane g.trap.w1))
      | some (tag, a) => if a.sent then .fault .notNow else .next (s.sendAwait core tag a)
/-- The popped entry of a core that an await is for: its handle and the entry. -/
def State.awaitEntry (s : State) (c : Nat) (a : Await) : Option (Nat × Moor) :=
  (s.core c).mq.find? (fun e => e.2.popped && (match s.group? e.2.key, e.2.kind with
    | some g, 1 => s.awaitFor a g none
    | some g, 2 => s.awaitFor a g ((e.2.op.bind (s.op? c)).map (fun o => (o.gather, o.seq)))
    | _, _ => false))
/-- The reply to a forwarded fault on a page, through the entry held (R339 step 6): code 0 resumes with RETRY or RESUME, and 1 to 66 is
posted as a signal, with the group still parked. The state, and whether nothing is left to wait for. -/
def State.faultReply (s : State) (c h : Nat) (e : Moor) (code : Nat) : State × Bool :=
  match s.group? e.key with
  | none => (s, true)
  | some g =>
    if code = 0 then ((s.moorReply c h e (if e.kind = 1 then 0 else 3) 0).2, true)
    else if 66 < code then (s, true)
    else
      let q := s.signal c (s.ctxOf g).toNat code
      (q.2, match q.1 with
        | .ok _ => true
        | .error _ => false)
/-- The reply to a forwarded call (R410): the lane's results, and then the next lane's message or the group's NEXT. -/
def State.callReply (s : State) (c h : Nat) (e : Moor) (a : Await) (body : List Byte) : State :=
  let f (o : Nat) : Nat := leNat ((body.drop o).take 4)
  match s.group? e.key with
  | none => s
  | some g =>
    let g1 := g.result a.lane (BitVec.ofNat 32 (f 4)) (some (BitVec.ofNat 32 (f 8))) (f 0 % 2 == 1)
    let s1 := s.setGroup e.key g1
    match (Mask.toLanes g.trap.w1).find? (fun l => a.lane < l) with
    | some l => s1.forwardLane c g1 l
    | none => (s1.resumeGroup e.key true).freeHandle c h
/-- A reply acted on (R310): through the entry that the firmware holds, or kept until readmission has posted one (R339 step 6). The state,
and whether nothing is left to wait for. -/
def State.actOn (s : State) (c tag : Nat) (a : Await) (body : List Byte) : State × Bool :=
  match s.awaitEntry c a with
  | none => ({ s with awaits := aput tag { a with reply := some body } s.awaits }, true)
  | some (h, e) =>
    let s1 := { s with awaits := adel tag s.awaits }
    if a.lane < 32 then (s1.callReply c h e a body, true)
    else
      let q := s1.faultReply c h e (leNat (body.take 4))
      if q.2 then q else ({ q.1 with awaits := aput tag a q.1.awaits }, false)
/-- HOST_REPLY (R25, R310): over a host port that is up, the body stands at REPLY, and a KIND 6 notice carries the tag. -/
def execHostReply (core : Nat) (tag : BitVec 32) (reply : BitVec 64) (body : List (BitVec 8)) (s : State) : Out State :=
  if (aget? core s.cores).isNone then .fault .noTarget
  else if !s.hostUp then .fault .notNow
  else
    let s1 := match s.ctx0Write (s.core core).part reply body with
      | .ok s' => s'
      | .error _ => s
    .next (s1.postNotice core { kind := 6, popped := false, order := 0, slot := 0, ctxid := 0, info := tag, seq := 0, linear := 0,
                                addr := reply, blk := none })

end Sys2Proof.Machine
end

