-- ==== Sys2Proof/Machine/Invalidate.lean ====
section
/-! DEFINITION. Removal of translations and of lowered code: PTINV (R335, R336), DUNMAP (R411), TCINV (R352), TCPIN (R354) and the
translation miss (R346). -/
namespace Sys2Proof.Machine

/-! ## PTINV (R335, R336) -/

/-- Whether the byte before a + n is a canonical address, computed exactly (R335, R352, R360). -/
def lastOk (a : DWord) (n : Nat) : Bool := a.toNat + n ≤ 2 ^ 64 && canonical (a + BitVec.ofNat 64 (n - 1))
/-- What a PTINV removes: its mode, its ASID, whether global entries qualify, and the 57-bit range of MODE 00. -/
structure InvRange where
  mode : Nat
  asid : Nat
  glb : Bool
  lo : Nat
  len : Nat
deriving DecidableEq, Repr
/-- The range of a control word, a start address and a count. -/
def invRange (ctl : Nat) (start : DWord) (count : Nat) : InvRange :=
  { mode := ctl / 2 ^ 16 % 4, asid := ctl % 2 ^ 16, glb := ctl / 2 ^ 19 % 2 = 1, lo := va57 start, len := 4096 * count }
/-- The status of PTINV (R335). -/
def invStatus (ctl : Nat) (start : DWord) (count : Nat) : Nat :=
  if 2 ^ 20 ≤ ctl ∨ ctl / 2 ^ 16 % 4 = 3 then 1
  else if ctl / 2 ^ 16 % 4 = 0 ∧ (start.toNat % 4096 ≠ 0 ∨ count = 0 ∨ !canonical start ∨ !lastOk start (4096 * count)) then 2
  else 0
/-- Whether [a, a + n) meets the range of MODE 00. -/
def InvRange.meets (r : InvRange) (a n : Nat) : Bool := r.mode != 0 || (a < r.lo + r.len && r.lo < a + n)
/-- Whether an ASID qualifies. -/
def InvRange.asidOk (r : InvRange) (asid : Nat) : Bool := r.mode == 2 || asid == r.asid
/-- Whether a page matches (R335): the page of 2^bits bytes that holds a 57-bit address, of an ASID or global. -/
def InvRange.page (r : InvRange) (asid : Nat) (glob : Bool) (va bits : Nat) : Bool :=
  (if glob then r.mode == 2 || r.glb else r.asidOk asid) && r.meets (va / 2 ^ bits * 2 ^ bits) (2 ^ bits)
/-- Whether a permission cache entry matches (R335). -/
def InvRange.matchesEntry (r : InvRange) (e : PermEntry) : Bool := r.page e.asid e.glob e.va e.bits
/-- Whether the byte of a cache key may belong to a matching page: of a page that the permission cache no longer holds the size is not
known, and the largest is taken. Only clean copies are dropped by it, which any eviction may drop. -/
def InvRange.matchesKey (r : InvRange) (gone : List PermEntry) (k : Nat) : Bool :=
  let asid := k / 2 ^ 57
  let va := k % 2 ^ 57
  ((r.asidOk asid || r.glb) && r.meets (va / 2 ^ 30 * 2 ^ 30) (2 ^ 30)) ||
    gone.any (fun e => (e.glob || e.asid == asid) && va / 2 ^ e.bits == e.va / 2 ^ e.bits)
/-- Step 2 of R336 on one core: the matching entries, with their pages' dirty bytes written back, and the clean copies. -/
def State.invCore (s : State) (c : Nat) (r : InvRange) : State :=
  let gone := (s.core c).perm.filter r.matchesEntry
  let s1 := gone.foldl (fun s e => s.evictPerm c e) s
  (s1.discard c (fun k dirty => !dirty && r.matchesKey gone k)).modCore c (fun k =>
    let ro := k.ro.filter (fun e => !r.matchesKey gone e.1)
    { k with ro, roPoison := k.roPoison.filter (fun q => ro.any (fun e => e.1 / 64 == q)) })
/-- The stash sectors of matching pages leave their blocks (R139, R336): a stash keeps its bytes at the point of coherence. -/
def State.invStash (s : State) (part : Nat) (r : InvRange) : State :=
  { s with blocks := s.blocks.map (fun (e : Nat × Block) =>
      if e.2.part == part then
        (e.1, { e.2 with stashFilled := e.2.stashFilled.filter (fun q =>
          match aget? (q.1 / 64) e.2.stash with
          | some g => !(r.page e.2.asid.toNat r.glb (g.page % 2 ^ 57) q.2.2 || r.page e.2.asid.toNat false (g.page % 2 ^ 57) q.2.2)
          | none => true) })
      else e) }
/-- Whether a line of the last-level cache belongs to a matching page of a partition (R336 step 4): by its own ASID (R323), and of a global page under
GLB too. -/
def InvRange.matchesLine (r : InvRange) (part : Nat) (t : LineTag) : Bool :=
  t.part == part && (r.page t.asid false (256 * t.va) t.bits || r.page t.asid t.glob (256 * t.va) t.bits)
/-- The matching lines leave the last-level cache, the dirty bytes of host lines to the host first (R336 step 4); a line that a link is
still bringing is not kept when it comes. -/
def State.flushLines (s : State) (part c : Nat) (r : InvRange) : State :=
  let lines := (s.llcTag.filter (fun e => r.matchesLine part e.2)).map Prod.fst
  let s1 := (lines.foldl (fun s l => s.hostLineWb c l) s).dropLines (fun l => lines.contains l)
  { s1 with requests := s1.requests.map (fun (e : Nat × Request) =>
      if e.2.llc.any (r.matchesLine part) then (e.1, { e.2 with llc := none }) else e) }
/-- Steps 2 to 5 of R336 on a partition. -/
def State.invalidate (s : State) (part c : Nat) (r : InvRange) (unmap : Bool) : State :=
  let cores := (s.cores.filter (fun e => e.2.part == part)).map Prod.fst
  let s1 := cores.foldl (fun s c => s.invCore c r) s
  let s2 := (s1.invStash part r).dropUnits part (fun u =>
    r.page u.asid.toNat false (va57 u.entry) u.bits || r.page u.asid.toNat r.glb (va57 u.entry) u.bits)
  if unmap then s2.flushLines part c r else s2
/-- The link requests of a partition's cores that are outstanding (R336 steps 2 and 4). -/
def State.openTags (s : State) (part : Nat) : List Nat :=
  (s.requests.filter (fun e => (s.core e.2.core).part == part && e.2.kind != .tsend)).map Prod.fst
/-- Whether a RED of a core of the partition waits for its sector (R173): it was checked with the entries as they stood, so it is performed
before they go (R336 step 2). -/
def State.redsIn (s : State) (part : Nat) : Bool := s.requests.any (fun e => !e.2.acts.isEmpty && (s.core e.2.core).part == part)
/-- PTINV (R336): the slot waits, past its word, until the accesses that were outstanding are performed. -/
def ptinv (i : Instr) (r : RWord) (s : State) : Out State :=
  stateWord i s (fun g _ => do
    let ctl := (g.getS r.a.toNat).toNat
    let start := g.getS64 r.b.toNat
    let count := (g.getS r.c.toNat).toNat
    let st := invStatus ctl start count
    if st ≠ 0 then pure (s.status r.d.toNat st)
    else
      let part := (s.core g.core).part
      if s.redsIn part then throw (.wait s .none)
      let s0 ← s.release g 0 2 g.mask0
      let s1 := s0.invalidate part g.core (invRange ctl start count) (ctl / 2 ^ 18 % 2 = 1)
      let tags := s1.openTags part
      let s2 := s1.status r.d.toNat 0
      if tags.isEmpty then pure s2 else throw (.wait s2.advance (.tags tags)))
/-- PTINV of a range (R336). -/
def execPtinvRange (r : RWord) (s : State) : Out State := ptinv (.ptinvRange r) r s
/-- PTINV of an ASID (R336). -/
def execPtinvAsid (r : RWord) (s : State) : Out State := ptinv (.ptinvAsid r) r s
/-- PTINV of a partition (R336). -/
def execPtinvPartition (r : RWord) (s : State) : Out State := ptinv (.ptinvPartition r) r s

/-! ## DUNMAP (R411) -/

/-- The physical address of the leaf that maps an address, and its page size in bits. -/
def State.leafFrom (s : State) (va lvl table : Nat) : Option (Nat × Nat) :=
  let pa := table + 8 * (va / 2 ^ (12 + 9 * lvl) % 512)
  let e := s.physNat pa 8
  if e % 2 = 0 then none
  else match lvl with
    | 0 => some (pa, leafBits (pte e 10 2))
    | l + 1 => if pte e 10 2 != 0 then some (pa, leafBits (pte e 10 2)) else s.leafFrom va l (pte e 12 40 * 4096)
/-- The leaves of [a, a + n) made not present: those of pages that lie in the range. -/
def State.unmapLeaves (s : State) (root : Nat) (a : DWord) (n : Nat) : State :=
  (List.range (n / 4096)).foldl (fun s k =>
    let va := va57 (a + BitVec.ofNat 64 (4096 * k))
    match s.leafFrom va 4 root with
    | some (pa, bits) => if bits ≤ 16 then s.writePhysN pa (leBytes 0 8) false else s
    | none => s) s
/-- What is left of a region without [a, a + n). -/
def Region.without (r : Region) (a : DWord) (n : Nat) : List Region :=
  let lo := a.toNat
  let hi := a.toNat + n
  let base := r.base.toNat
  let top := base + r.len
  if hi ≤ base ∨ top ≤ lo then [r]
  else (if base < lo then [{ r with len := lo - base }] else []) ++
    (if hi < top then [{ r with base := BitVec.ofNat 64 hi, len := top - hi }] else [])
/-- Whether every 64 KiB page of [a, a + n) lies in a DMAP region of a partition's context. -/
def State.dmapped (s : State) (part : Nat) (ctxid : BitVec 16) (a : DWord) (n : Nat) : Bool :=
  (List.range (n / 65536)).all (fun k => s.regions.any (fun r =>
    r.part == part && r.ctxid == ctxid && r.base.toNat ≤ a.toNat + 65536 * k && a.toNat + 65536 * k < r.base.toNat + r.len))
/-- CALL_DUNMAP (R411): the pages become not present, and their translations are removed by the steps of R336. -/
def execCallDunmap (core handle : Nat) (s : State) : Out State :=
  serveWith core handle s (fun n => n == 3) (fun s g l =>
    let a := g.arg64 1 l
    let n := (g.arg64 3 l).toNat
    let w := s.whoGroup g
    if n = 0 ∨ n % 65536 ≠ 0 ∨ a.toNat % 65536 ≠ 0 ∨ !s.dmapped w.part w.ctxid a n then (s, g.result l 2 none false)
    else
      let s1 := (s.unmapLeaves w.root a n).invalidate w.part core
        { mode := 0, asid := w.asid, glb := false, lo := va57 a, len := n } true
      ({ s1 with regions := s1.regions.flatMap (fun r => if r.part == w.part && r.ctxid == w.ctxid then r.without a n else [r]) },
        g.result l 0 none true))

/-! ## TCINV, TCPIN (R352, R354) -/

/-- The status of a code range (R352). -/
def codeStatus (start : DWord) (len : Nat) : Nat :=
  if start.toNat % 8 ≠ 0 ∨ len = 0 ∨ len % 8 ≠ 0 then 1
  else if !canonical start || !lastOk start len then 2
  else 0
/-- The units of an ASID that hold a word of a range are removed (R352). -/
def State.dropCode (s : State) (part asid : Nat) (start : DWord) (len : Nat) : State :=
  s.dropUnits part (fun u => u.asid.toNat == asid && u.entry.toNat < start.toNat + len &&
    start.toNat < u.entry.toNat + 8 * u.words.length)
/-- TCINV (R352): every slot of the ASID stands at a commit boundary between words, so nothing is awaited. -/
def execTcinv (r : RWord) (s : State) : Out State :=
  stateWord (.tcinv r) s (fun g m => do
    g.consumeU 4 m [r.a.toNat, r.a.toNat + 1, r.b.toNat]
    let start := g.getS64 r.a.toNat
    let len := (g.getS r.b.toNat).toNat
    let st := codeStatus start len
    if st ≠ 0 then pure (s.status r.d.toNat st)
    else
      let w := s.whoGroup g
      let s1 ← s.release g w.ctxid 2 (g.mask s.cur.slot1)
      pure ((s1.dropCode w.part w.asid start len).status r.d.toNat 0))
/-- The access identity of the live context with an ASID, as a core's descriptor table gives it. -/
def State.whoAsid (s : State) (c asid : Nat) : Option Who :=
  if asid = 0 then some { core := c, part := (s.core c).part, asid := 0, root := s.root0 (s.core c).part, user := false, secure := true, ctxid := 0, ok := true }
  else (List.range 1024).findSome? (fun k =>
    match (s.rawDesc c (BitVec.ofNat 16 k)).filter (fun d => d.live && d.asid == asid) with
    | some d => some (s.whoCtx c (BitVec.ofNat 16 (k + 1024 * d.gen)))
    | none => none)
/-- The unit at a PC lowered where no unit holds it and its page is executable (R344, R346); the sector that a link must bring first. -/
def State.lowerAt (s : State) (w : Who) (pc : DWord) (p : Pend) : State × Option Fetch :=
  if (s.unitWord w pc).isSome then (s, none)
  else match s.permLookup w pc with
    | .error _ => (s, none)
    | .ok e => match permCheck w .fetch e, s.targetOf w e pc false with
      | .ok (), .ok t => match s.codeRead w e t pc p with
        | .words l => (s.addUnit w pc e.bits (unitWords l false), none)
        | .need f => (s, some f)
        | .fail _ => (s, none)
      | _, _ => (s, none)
/-- The status of TCPIN (R354). -/
def State.pinStatus (s : State) (part : Nat) (p : Pin) (ctl : Nat) : Nat :=
  let st := codeStatus p.start p.len
  let pins := (s.part part).pins
  if st ≠ 0 then st
  else if 2 ^ 17 ≤ ctl then 3
  else if ctl / 2 ^ 16 = 1 then (if pins.contains p then 0 else 5)
  else if 16 ≤ pins.length then 4 else 0
/-- A pin record added or removed (R354). -/
def State.pin (s : State) (part : Nat) (p : Pin) (unpin : Bool) : State :=
  s.modPart part (fun x => { x with pins := if unpin then x.pins.filter (fun q => q != p) else x.pins ++ [p] })
/-- TCPIN (R354): S[C] tells pin from unpin. The slot waits for a sector of host memory that holds the start of the range, and a
poisoned A or B is consumed as by TCINV. -/
def tcpin (i : Instr) (r : RWord) (s : State) : Out State :=
  stateWord i s (fun g m => do
    g.consumeU 4 m [r.a.toNat, r.a.toNat + 1, r.b.toNat]
    let part := (s.core g.core).part
    let ctl := (g.getS r.c.toNat).toNat
    let p : Pin := { asid := BitVec.ofNat 16 ctl, start := g.getS64 r.a.toNat, len := (g.getS r.b.toNat).toNat }
    let unpin := ctl / 2 ^ 16 = 1
    let st := s.pinStatus part p ctl
    if st ≠ 0 then pure (s.status r.d.toNat st)
    else if unpin then pure ((s.pin part p true).status r.d.toNat 0)
    else match s.whoAsid g.core (ctl % 2 ^ 16) with
      | none => pure ((s.pin part p false).status r.d.toNat 0)
      | some w =>
        let pend := (g.pendOf s.cur.slot1).getD Pend.empty
        let q := s.lowerAt w p.start pend
        match q.2 with
        | none => pure ((q.1.pin part p false).status r.d.toNat 0)
        | some f =>
          let x := q.1.requestSectors (slotKey s.cur.key s.cur.slot1) w none pend [f]
          throw (.wait (x.1.modGroup s.cur.key (fun h => h.setPend s.cur.slot1 (some x.2))) .none))
/-- TCPIN (R354). -/
def execTcpin (r : RWord) (s : State) : Out State := tcpin (.tcpin r) r s
/-- TCPIN with UNPIN (R354). -/
def execTcpinUnpin (r : RWord) (s : State) : Out State := tcpin (.tcpinUnpin r) r s

/-- Whether a unit's entry lies in a pinned range of its partition (R354). -/
def State.pinned (s : State) (u : CodeUnit) : Bool :=
  (s.part u.part).pins.any (fun p => p.asid == u.asid && p.start ≤ u.entry && (u.entry - p.start).toNat < p.len)
/-- Whether a unit holds the current PC of a group (R346). -/
def State.unitInUse (s : State) (u : CodeUnit) : Bool :=
  s.groups.any (fun e =>
    let w := s.whoGroup e.2
    let at' (pc : DWord) : Bool := u.holds w.part w.asid u.version u.stepping pc
    e.2.state != .ended && (at' e.2.pc0 || (e.2.run1 && at' e.2.pc1)))
/-- The unit that leaves a partition's full share (R346, R354): the least recently used that no group stands in and no record pins. -/
def State.victim (s : State) (part : Nat) : Option CodeUnit :=
  s.units.find? (fun u => u.part == part && !s.unitInUse u && !s.pinned u)
/-- The oldest pinned unit of the die in which no group stands (R346, R354): the one that was lowered first. -/
def State.oldestPinned (s : State) : Option CodeUnit :=
  (s.units.filter (fun u => s.pinned u && !s.unitInUse u)).foldl (fun o u => match o with
    | none => some u
    | some x => if u.born < x.born then some u else some x) none
/-- Whether the pinned units of the die are more than 64 MiB (R354): lowered code has no stated size, so a free value says it (DESIGN
CHOICE, log 65). -/
def State.pinsFull (s : State) : Bool := Config.freeNat s.freeCtr % 2 == 1
/-- TRANSLATION_MISS (R346, R348, R354): the unit at the slot's PC is lowered. Where the pinned units of the die are more than 64 MiB, the
oldest of them goes first. The event says whether the partition's share is full (DESIGN CHOICE, log 65): a full share that gained no room so
gives up a unit, and with none to give up reaching the PC traps RESOURCE until one comes free. -/
def execTranslationMiss (key : Nat) (slot full : Bool) (s : State) : Out State :=
  match s.group? key with
  | none => .fault .noGroup
  | some g =>
    let w := s.whoGroup g
    let lower (s : State) : State := (s.lowerAt w (g.pc slot) Pend.empty).1
    if (s.unitWord w (g.pc slot)).isSome then .fault .notNow
    else
      let old := if s.pinsFull then s.oldestPinned else none
      let s1 := { s.takeFree 1 with units := s.units.filter (fun u => some u != old) }
      let room (s : State) : State := lower { s with exhausted := setDel w.part s.exhausted }
      if !full || old.any (fun u => u.part == w.part) then .next (room s1)
      else match s1.victim w.part with
        | some u => .next (room { s1 with units := s1.units.erase u })
        | none => .next { s1 with exhausted := setAdd w.part s1.exhausted }

end Sys2Proof.Machine
end

