-- ==== Sys2Proof/Machine/Debug.lean ====
section
/-! DEFINITION. The debug and trace class (R358 to R367): trace records, watchpoints and breakpoints, performance counters, debug
stops and the last-events record. -/
namespace Sys2Proof.Machine

/-! ## Trace (R364) -/

/-- The GROUP byte of a trace record. -/
def traceGroup (g : Group) (pois : Bool) : Nat := g.gid % 32 + (if g.isSup then 32 else 0) + (if pois then 64 else 0)
/-- The 32 bytes of a trace record. -/
def traceBytes (tick vpc : DWord) (ctxid : BitVec 16) (core group tag lo hi : Nat) : List Byte :=
  leBytes tick.toNat 8 ++ leBytes vpc.toNat 8 ++ leBytes ctxid.toNat 2 ++ leBytes core 1 ++ leBytes group 1 ++ leBytes tag 4 ++
    leBytes lo 4 ++ leBytes hi 4
/-- A record appended to a core's trace buffer, which is given the count of records dropped since the last one; a full buffer
drops and counts it. -/
def State.traceAppend (s : State) (c : Nat) (record : Nat → List Byte) : State :=
  s.modCore c (fun k =>
    if 512 ≤ k.traceBuf.length then { k with traceDrop := k.traceDrop + 1 }
    else
      let place := match k.traceBuf.getLast? with
        | some e => e.1 + 1
        | none => 0
      { k with traceBuf := k.traceBuf ++ [(place, record k.traceDrop)], traceDrop := 0 })
/-- The key of a context of a partition in `State.traceOn` (R364); every partition has a context 0. -/
def traceKey (part : Nat) (ctxid : BitVec 16) : Nat := 65536 * part + ctxid.toNat
/-- Whether tracing is enabled for the caller's context. -/
def State.tracing (s : State) (g : Group) : Bool := s.traceOn.contains (traceKey (s.core g.core).part (s.ctxOf g))
/-- TRACE (R364). -/
def execTrace (r : RWord) (s : State) : Out State :=
  stateWord (.trace r) s (fun g _ =>
    if !s.tracing g then .ok s
    else
      let pois := g.poisonSRun r.a.toNat 2
      .ok (s.traceAppend g.core (fun drop => traceBytes s.tick g.pc0 (s.ctxOf g) g.core (traceGroup g pois)
        (2 ^ 30 + 2 ^ 24 * min drop 63 + r.xop.toNat) (g.getS r.a.toNat).toNat (g.getS (r.a.toNat + 1)).toNat)))
/-- MARK (R364). -/
def execMark (r : IWord) (s : State) : Out State :=
  stateWord (.mark r) s (fun g _ =>
    if !s.tracing g then .ok s
    else .ok (s.traceAppend g.core (fun drop => traceBytes s.tick g.pc0 (s.ctxOf g) g.core (traceGroup g false)
      (2 ^ 31 + r.imm.toNat % 2 ^ 24) (min drop (2 ^ 32 - 1)) 0)))
/-- The partition's trace ring at the host takes one record (R364, R370). -/
def State.ringPut (s : State) (part : Nat) (bytes : List Byte) : State :=
  let p := s.part part
  let pa := p.trbase + BitVec.ofNat 64 (32 * p.trtail.toNat)
  let r := s.newRequest { blankRequest .posted noCore 0 (.host (hostBase + pa.toNat % 2 ^ 51) true) pa s.tick with key := 16 + part }
  (r.1.modPart part (fun p => { p with trtail := BitVec.ofNat 64 ((p.trtail.toNat + 1) % p.trsize.toNat) })).send
    (.write r.2 none pa bytes false)
/-- TRACE_DRAIN (R364, R370): the buffer's records leave for the ring in order. No rule tells the device how far the host has read, so for
how many records the full ring still has room is a free value (DESIGN CHOICE, log 67); the others are dropped and counted. -/
def execTraceDrain (core : Nat) (s : State) : Out State :=
  let k := s.core core
  if k.traceBuf.isEmpty || (s.part k.part).trsize == 0 || !s.hostUp then .fault .notNow
  else
    let room := Config.freeNat s.freeCtr
    let lost := k.traceBuf.length - room
    .next (((k.traceBuf.take room).foldl (fun s e => s.ringPut k.part e.2) (s.takeFree 1)).modCore core (fun k =>
      { k with traceBuf := [], traceDrop := k.traceDrop + lost }))

/-! ## Watchpoints and breakpoints (R360, R362) -/

/-- The target ASID of a debug control word. -/
def debugAsid (own ctl : Nat) : Nat := if ctl / 64 % 2 = 1 then ctl / 2 ^ 16 else own
/-- Status 1 of a debug control word (R360), of WPSET and WPCLR alike. -/
def debugBad (sup : Bool) (ctl : Nat) : Bool :=
  ctl / 128 % 512 != 0 || (ctl / 8 % 2 == 0 && ctl / 16 % 4 == 0) || (ctl / 8 % 2 == 1 && ctl / 4 % 2 == 1) ||
    (ctl / 64 % 2 == 1 && !sup) || (ctl / 64 % 2 == 0 && ctl / 2 ^ 16 != 0)
/-- A breakpoint of an ASID set or cleared (R362): the translations of its PC go as under TCINV. -/
def State.setBreak (s : State) (g : Group) (asid n : Nat) (b : Option Breakpoint) : State :=
  let part := (s.core g.core).part
  let key := bpKey part asid n
  let old := aget? key s.breakpoints
  let drop (s : State) (o : Option Breakpoint) : State := match o with
    | some x => (s.publish g.core).dropCode part asid x.pc 8
    | none => s
  let s1 := { s with breakpoints := match b with
    | some x => aput key x s.breakpoints
    | none => adel key s.breakpoints }
  drop (drop s1 old) b
/-- WPSET (R360): the status and the state. -/
def State.wpSet (s : State) (g : Group) (start : DWord) (len ctl : Nat) (lanes : Mask) : Nat × State :=
  let own := (s.whoGroup g).asid
  let asid := debugAsid own ctl
  if debugBad g.isSup ctl then (1, s)
  else if ctl / 8 % 2 = 1 then
    if !canonical start || start.toNat % 8 != 0 then (2, s)
    else (0, s.setBreak g asid (ctl % 4) (some { pc := start, ctl := BitVec.ofNat 32 ctl }))
  else if len = 0 ∨ !canonical start ∨ !lastOk start len then (2, s)
  else if ((aget? (ctl % 8) (s.core g.core).comps).map (fun x => x.asid.toNat != asid)).getD false then (3, s)
  else (0, s.modCore g.core (fun k =>
    { k with comps := aput (ctl % 8) { start, len, lanes, ctl := BitVec.ofNat 32 ctl, asid := BitVec.ofNat 16 asid } k.comps }))
/-- WPCLR (R360): the status and the state. -/
def State.wpClr (s : State) (g : Group) (ctl : Nat) : Nat × State :=
  let asid := debugAsid (s.whoGroup g).asid ctl
  if debugBad g.isSup ctl then (1, s)
  else if ctl / 8 % 2 = 1 then (0, s.setBreak g asid (ctl % 4) none)
  else if ((aget? (ctl % 8) (s.core g.core).comps).map (fun x => x.asid.toNat != asid)).getD false then (3, s)
  else (0, s.modCore g.core (fun k => { k with comps := adel (ctl % 8) k.comps }))
/-- WPSET (R360): under BP, S[B] and S[C+1] are not read. -/
def wpset (i : Instr) (r : RWord) (s : State) : Out State :=
  stateWord i s (fun g m => do
    let ctl := (g.getS r.c.toNat).toNat
    let bp := ctl / 8 % 2 = 1
    g.consumeU 8 m ([r.a.toNat, r.a.toNat + 1] ++ (if bp then [r.c.toNat] else [r.b.toNat, r.c.toNat, r.c.toNat + 1]))
    let q := s.wpSet g (g.getS64 r.a.toNat) (g.getS r.b.toNat).toNat ctl (g.getS (r.c.toNat + 1))
    pure (q.2.status r.d.toNat q.1))
/-- WPSET of a comparator (R360). -/
def execWpset (r : RWord) (s : State) : Out State := wpset (.wpset r) r s
/-- WPSET of a breakpoint (R360). -/
def execWpsetBp (r : RWord) (s : State) : Out State := wpset (.wpsetBp r) r s
/-- WPCLR (R360). -/
def wpclr (i : Instr) (r : RWord) (s : State) : Out State :=
  stateWord i s (fun g m => do
    g.consumeU 8 m [r.a.toNat]
    let q := s.wpClr g (g.getS r.a.toNat).toNat
    pure (q.2.status r.d.toNat q.1))
/-- WPCLR of a comparator (R360). -/
def execWpclr (r : RWord) (s : State) : Out State := wpclr (.wpclr r) r s
/-- WPCLR of a breakpoint (R360). -/
def execWpclrBp (r : RWord) (s : State) : Out State := wpclr (.wpclrBp r) r s

/-! ## Counters (R365) -/

/-- Whether an item names a counter: a bin, a reason, or the cycles. -/
def perfItem (n : Nat) : Bool := n ≤ 16 || (32 ≤ n && n ≤ 48)
/-- The value that PERFRD reads (R365). The supervisor group has no block, and for it the count of its block is not stated: a free
value (DESIGN CHOICE, log 5). -/
def State.perfRead (s : State) (g : Group) (x : Nat) : DWord :=
  let item := x % 64
  if x / 64 % 4 ≠ 0 ∨ 512 ≤ x ∨ !perfItem item ∨ (x / 256 % 2 = 1 ∧ !g.isSup) then BitVec.allOnes 64
  else if x / 256 % 2 = 1 then aval 0 item (s.core g.core).totals
  else match s.blockOf g with
    | some b => aval 0 item b.bins
    | none => pair (Config.freeWord s.freeCtr) (Config.freeWord (s.freeCtr + 1))
/-- PERFRD (R365). -/
def execPerfrd (r : RWord) (s : State) : Out State :=
  stateWord (.perfrd r) s (fun g m => do
    g.consumeU 8 m [r.a.toNat]
    let x := s.perfRead g (g.getS r.a.toNat).toNat
    pure ((s.takeFree (if g.isSup then 2 else 0)).modGroup s.cur.key (fun h => h.setS64 r.d.toNat x false)))

/-! ## Debug stops and the last-events record (R358, R367) -/

/-- DEBUG_STOP_ARM (R358): without the manifest's grant nothing is armed. -/
def execDebugStopArm (tick : BitVec 64) (part : Option Nat) (s : State) : Out State :=
  if s.flash.manifest.debugFlags.getLsbD 0 && (part.all (fun p => p < s.parts.length)) then
    .next { s with debugArmed := s.debugArmed ++ [(tick, part)] }
  else .next s
/-- DEBUG_STOP (R358): the scope is gated once the tick has come, and the record notes it. -/
def execDebugStop (part : Option Nat) (s : State) : Out State :=
  match s.debugArmed.find? (fun e => e.2 == part && decide (e.1 ≤ s.tick)) with
  | none => .fault .notNow
  | some e => .next ({ s with debugArmed := s.debugArmed.erase e, debugStopped := s.debugStopped ++ [part] }.logEvent
      true 5 (part.getD 0) 0xFF 0 [(lo32 e.1).zeroExtend 64, (hi32 e.1).zeroExtend 64])
/-- The 32 bytes of an entry of the last-events record (R367), as four 64-bit values. -/
def EventRecord.words (e : EventRecord) : List DWord :=
  let d (k : Nat) : Nat := (lo32 (e.info.getD k 0)).toNat
  [e.tick, BitVec.ofNat 64 (e.seq % 2 ^ 32 + 2 ^ 32 * (e.type % 2 ^ 16) + 2 ^ 48 * (e.part % 256) + 2 ^ 56 * (e.core % 256)),
    BitVec.ofNat 64 (e.ctxid.toNat + 2 ^ 32 * d 0), BitVec.ofNat 64 (d 1 + 2 ^ 32 * d 2)]
/-- LAST_EVENTS_READ (R367, R385): the records leave on the management interface, oldest first. -/
def execLastEventsRead (s : State) : Out State :=
  if s.managementUp then .next (s.send (.mgmt 0 (s.eventLog.flatMap EventRecord.words))) else .fault .notNow

end Sys2Proof.Machine
end

