-- ==== Sys2Proof/Machine/Hints.lean ====
section
/-! DEFINITION. The hint space (R52 to R54). -/
namespace Sys2Proof.Machine

/-- The destination of a hint (R52): nothing, a lane register below the allotment in the ACTIVE lanes, or a uniform register. -/
def Group.hintDst (g : Group) (r : RWord) (m : Mask) (f : Nat → Word) : Group :=
  let dn := r.xop.toNat % 4
  if dn = 1 ∧ r.d.toNat < g.allot then g.writeV r.d.toNat m 0 f
  else if dn = 2 ∧ r.d.toNat < 64 ∧ m ≠ 0 then g.setS r.d.toNat (f (lowLane m)) false
  else g
/-- A hint (R52): no check but slot 1's stop, then the effect on the group and the value, where ACTIVE is not empty. -/
def hintWord (i : Instr) (r : RWord) (s : State) (f : State → Group → Mask → State × Group × (Nat → Word)) : Out State :=
  match s.group? s.cur.key with
  | none => .fault .noGroup
  | some g =>
    if s.cur.slot1 && stopsSlot1 (wordOf i) then s.stopSecondary s.cur.key g
    else
      let m := g.active s.cur.slot1 r.pg.toNat r.pn
      if m = 0 then .next s.advance
      else
        let q := f s g m
        .next (q.1.setGroup s.cur.key (q.2.1.hintDst r m q.2.2)).advance
/-- HPRI (R54): XOP<3:2> = 1 raises the level; the previous level is written. -/
def execHpri (r : RWord) (s : State) : Out State :=
  hintWord (.hpri r) r s (fun s g _ =>
    (s, { g with hint := r.xop.toNat / 4 % 4 == 1 }, fun _ => if g.hint then 1 else 0))
/-- HLIVE (R54). -/
def execHlive (r : RWord) (s : State) : Out State := hintWord (.hlive r) r s (fun s g _ => (s, g, fun _ => 0))
/-- The free slots of a core's engine class (R189, R204). -/
def State.freeSlots (s : State) (c : Nat) (gather : Bool) : Nat :=
  (if gather then 256 else 1024) - ((s.core c).ops.filter (fun o => o.gather == gather && o.slot.isSome)).length
/-- HQLEN (R54). -/
def execHqlen (r : RWord) (s : State) : Out State :=
  hintWord (.hqlen r) r s (fun s g _ => (s, g, fun _ => BitVec.ofNat 32 (s.freeSlots g.core (r.xop.getLsbD 2))))
/-- The stack of the line of device memory that the last-level cache holds under the caller's ASID and a virtual address, by the line's
physical record and with no translation (R54, R328); all ones where no line of device memory stands under it. The tags hold 57-bit addresses,
so a pair that holds a non-canonical address is looked up by its low 57 bits (DESIGN CHOICE, log 68: no rule says what it gives). -/
def State.locStack (s : State) (w : Who) (va : DWord) : Word :=
  match s.llcTag.find? (fun e => e.2.part == w.part && e.2.asid == w.asid && e.2.va == va57 va / 256 && 256 * e.1 < hbmEnd) with
  | some e => BitVec.ofNat 32 (stackOf (256 * e.1))
  | none => BitVec.allOnes 32
/-- HLOC (R54). The model keeps no record of what has left the cache for want of room, so whether it still holds the line at the moment of
the probe is a free value (DESIGN CHOICE, log 5). -/
def execHloc (r : RWord) (s : State) : Out State :=
  hintWord (.hloc r) r s (fun s g _ =>
    let a := r.a.toNat / 2 * 2
    let w := s.whoGroup g
    let held (l : Nat) : Bool := Config.freeNat (s.freeCtr + l) % 2 == 1
    let f (l : Nat) : Word :=
      if g.allot ≤ a + 1 || (g.srcPoison a 2 false).getLsbD l || !held l then BitVec.allOnes 32
      else s.locStack w (g.src64 a false l)
    (s.takeFree 32, g, f))
/-- A hint code that the device does not implement (R53). -/
def execHintUnimplemented (code : BitVec 6) (r : RWord) (s : State) : Out State :=
  hintWord (.hintUnimplemented code r) r s (fun s g _ => (s, g, fun _ => 0))

end Sys2Proof.Machine
end

