-- ==== Sys2Proof/Machine/Links.lean ====
section
/-! DEFINITION. Events of the links: responses, failures and replays of what the device sent (R146, R160, R186, R271, R334, R380), what
peers send to it (R333, R378, R379), host snoops and accesses (R183, R369), host warm restart (R381), and the
caches' own events (R140, R143, R325). -/
namespace Sys2Proof.Machine

/-! ## Responses to the device's requests -/

/-- A request that waits for its request context takes it once it is free (R379): its message leaves, and its time for a response begins. -/
def State.ctxReuse (s : State) : Option State :=
  let takes (e : Nat × (Nat × Option Msg)) : Bool :=
    (aget? (32768 * e.2.1 + e.1 % 32768) s.linkCtxs).all (fun x => x.free s.tick) &&
      !(s.ctxWait.any (fun f => decide (f.1 < e.1) && f.2.1 == e.2.1 && f.1 % 32768 == e.1 % 32768))
  (s.ctxWait.find? takes).map (fun e =>
    let s1 : State := { s with
      ctxWait := adel e.1 s.ctxWait,
      linkCtxs := aput (32768 * e.2.1 + e.1 % 32768) { tag := e.1, busy := (aget? e.1 s.requests).isSome, replayed := none } s.linkCtxs,
      requests := amod e.1 (fun r => { r with issued := s.tick }) s.requests }
    match e.2.2, aget? e.1 s.requests with
    | some m, some _ => s1.send m
    | _, _ => s1)
/-- What the device keeps of the bytes that a link has brought (R140, R169, R183): the host line of the last-level cache, in which the
bytes that it holds already stay, its ownership, and the sector of L1 or of the read-only path. -/
def State.keepBytes (s : State) (r : Request) (bytes : List Byte) : State :=
  let s1 := match r.target, r.llc with
    | .host pa _, some tag =>
      let s1 := s.tagLine r.core pa tag
      { s1 with
        llcHost := (List.range 64).foldl (fun m k =>
          if (aget? (pa + k) m).isSome then m else aput (pa + k) (bytes.getD k 0, false) m) s1.llcHost,
        llcOwned := if r.own then setAdd (pa / 64) s1.llcOwned else s1.llcOwned }
    | _, _ => s
  if (s1.core r.core).fenced then s1
  else match s1.sectorAt r.target (some (bytes, false)) with
  | none => s1
  | some (b, p) =>
    let s2 := match r.l1 with
      | some sec => (s1.modCore r.core (fun k => k.fillL1 sec b p true)).trimCaches r.core [sec]
      | none => s1
    match r.ro with
    | some sec => (s2.modCore r.core (fun k => k.fillRo sec b p)).trimCaches r.core [sec]
    | none => s2
/-- A part of an access is answered: the request is gone, and the slot or operation that awaits it takes `f` of its pending parts,
for the part's number. An answer that nothing awaits any more, and one to a prefetch or to a request for ownership, is dropped. -/
def State.answerPart (s : State) (tag : Nat) (r : Request) (f : Nat → Pend → Pend) : State :=
  let s1 := { s with requests := adel tag s.requests }
  let upd (p : Pend) : Pend := match aget? tag p.waiting with
    | some k => f k { p with waiting := p.waiting.filter (fun e => e.1 != tag) }
    | none => p
  match r.kind, r.op with
  | .prefetch, _ => s1
  | .own, _ => s1
  | _, some (c, id) => match s1.op? c id with
    | some o => s1.setOp c { o with pend := upd o.pend }
    | none => s1
  | _, none =>
    if r.core = noCore then s1.modPart r.key (fun q => { q with sqPend := upd q.sqPend }) else
    let slot1 := r.key % 2 == 1
    s1.modGroup (r.key / 2) (fun g => match g.pendOf slot1 with
      | some p => g.setPend slot1 (some (upd p))
      | none => g)
/-- The part's bytes have come. -/
def State.landPart (s : State) (tag : Nat) (r : Request) (bytes : List Byte) : State :=
  (s.keepBytes r bytes).answerPart tag r (fun k p => { p with landed := aput k (bytes, false) p.landed })
/-- The part has failed, with W0 of its trap and its link code (R380). Stores to a host line that does not become the device's own are
recorded as failed (R183, R186). -/
def State.failPart (s : State) (tag : Nat) (r : Request) (reason kind code : Nat) (indet : Bool) : State :=
  if r.kind = .own then ({ s with requests := adel tag s.requests } : State).recordDeferred r.core r.ctxid r.addr reason
  else s.answerPart tag r (fun k p => { p with fails := aput k (remoteW0 reason kind indet r.chip + 2 ^ 40 * code) p.fails })
/-- A posted write has failed (R186, R207, R239, R334): the engine operation that made it fails, a completion record is noted as not
written, and every other write, and each RED that waited for the sector, is recorded for DEFERRED. -/
def State.failPosted (s : State) (tag : Nat) (r : Request) (w0 : Nat) : State :=
  let s1 := { s with requests := adel tag s.requests }
  match r.op.bind (fun q => (s1.op? q.1 q.2).map (fun o => (q.1, o))) with
  | some (c, o) => if o.reported then s1.recordDeferred c r.ctxid r.addr (w0 % 16) else s1.failOp c o 4 (linkCode w0) r.addr
  | none =>
    if r.core = noCore then
      if r.key < 8 then s1.logEvent false 16 r.key 0xFF r.ctxid [(lo32 r.addr).zeroExtend 64, (hi32 r.addr).zeroExtend 64] else s1
    else if r.acts.isEmpty then s1.recordDeferred r.core r.ctxid r.addr (w0 % 16)
    else s1.redFail r (w0 % 16)
/-- A response has come (R379): its request context is free for another use. -/
def Request.answered (r : Request) (tag : Nat) (s : State) : State := s.freeCtx r.chip tag
/-- A response to a use that its request no longer awaits (R379): the request context comes free. -/
def State.lateResponse (s : State) (tag : Nat) : Out State :=
  match s.linkCtxs.find? (fun e => e.2.tag == tag && e.2.busy) with
  | some e => .next { s with linkCtxs := aput e.1 { e.2 with busy := false } s.linkCtxs }
  | none => .fault .noTarget
/-- Whether a request's response has the form of a completion with data: a read, an atomic, a prefetch, the sector that REDs wait for, or
the read of no bytes behind a posted write to a non-coherent page (R184). -/
def Request.completes (r : Request) : Bool :=
  match r.kind with
  | .posted => !r.acts.isEmpty || (match r.target with
    | .host _ coh => !coh
    | _ => false)
  | .tsend => false
  | _ => true
/-- The number of the host port in TYPE 3 records; the UALink ports are 0 to 15. -/
def hostPortNo : Nat := 16
/-- The partition that makes a request: its core's, or the one that the key of a request without a core names. -/
def State.makerPart (s : State) (r : Request) : Nat :=
  if r.core ≠ noCore then (s.core r.core).part else if r.key % 16 < 8 then r.key % 16 else 0
/-- A TYPE 3 record (R380): the port and the link code. -/
def State.linkEvent (s : State) (r : Option Request) (port code : Nat) : State :=
  let c := (r.map Request.core).getD 0xFF
  s.logEvent true 3 ((r.map s.makerPart).getD 0) (if c = noCore then 0xFF else c)
    ((r.map Request.ctxid).getD 0) [BitVec.ofNat 64 port, BitVec.ofNat 64 code]
/-- The TYPE 3 record of a request that ended with an error of its link (R380). -/
def State.requestEvent (s : State) (r : Request) (code : Nat) : State := s.linkEvent (some r) (r.port.getD hostPortNo) code
/-- LOAD_PERFORMED (R146, R173, R184, R334, R380): `fault` is 0, a target's fault kind, or link code 35; a completion with poison is link
code 34. An error of the link is recorded. -/
def execLoadPerformed (tag : Nat) (data : List (BitVec 8)) (poison : Bool) (fault : Nat) (s : State) : Out State :=
  match aget? tag s.requests with
  | none => s.lateResponse tag
  | some r =>
    let kind := if fault < 16 then fault else 0
    let code := if poison && fault == 0 then 34 else if fault < 16 then 0 else 35
    let s0 := r.answered tag (if code = 0 then s else s.requestEvent r code)
    if !r.completes then .fault .noTarget
    else if poison ∨ fault ≠ 0 then
      .next (if r.kind = .posted then s0.failPosted tag r (1 + 16 * kind + 2 ^ 40 * code) else s0.failPart tag r 1 kind code false)
    else if r.kind = .posted then
      .next (({ s0 with requests := adel tag s0.requests }.keepBytes r data).redActs r data r.acts)
    else .next (s0.landPart tag r data)
/-- POSTED_WRITE_ACK (R160 step 3). -/
def execPostedWriteAck (tag : Nat) (s : State) : Out State :=
  match aget? tag s.requests with
  | none => s.lateResponse tag
  | some r => if r.kind = .posted ∧ r.acts = [] then .next (r.answered tag { s with requests := adel tag s.requests }) else .fault .noTarget
/-- POSTED_WRITE_FAIL (R186, R380): the reason is that of REMOTE; one without a target's fault is an error of the link, and is recorded. -/
def execPostedWriteFail (tag : Nat) (reason : Nat) (s : State) : Out State :=
  match aget? tag s.requests with
  | none => s.lateResponse tag
  | some r => if r.kind = .posted then
      .next ((r.answered tag (if linkCode reason < 16 then s else s.requestEvent r (linkCode reason))).failPosted tag r reason) else .fault .noTarget
/-- TETHER_APERTURE_RESPONSE (R271): the status of a peer TSEND. -/
def execTetherApertureResponse (tag : Nat) (status : Nat) (s : State) : Out State :=
  match aget? tag s.requests with
  | none => s.lateResponse tag
  | some r => if r.kind = .tsend then .next ((r.answered tag s).landPart tag r (leBytes status 1)) else .fault .noTarget
/-- LINK_RESPONSE_TIMEOUT (R334): LINKTMO counts microseconds. A PCIe AtomicOp leaves its lanes indeterminate (R173), and a
request to a peer is remembered, so that its replay keeps its tag (R379). -/
def execLinkResponseTimeout (tag : Nat) (s : State) : Out State :=
  match aget? tag s.requests with
  | none => .fault .noTarget
  | some r =>
    if (aget? tag s.ctxWait).isSome || s.tick - r.issued < BitVec.ofNat 64 (1000 * (s.part (s.makerPart r)).linktmo) then .fault .notNow
    else
      let s1 := s.requestEvent r 32
      match r.kind with
      | .posted => .next (s1.failPosted tag r 2)
      | .tsend => .next (s1.landPart tag r (leBytes 5 1))
      | k =>
        let part := (s.group? (r.key / 2)).bind (fun g => (g.pendOf (r.key % 2 == 1)).bind (fun p => aget? tag p.waiting))
        let dst := s.out.findSome? (fun m => match m with
          | .read t d a _ => if t = tag then some (d, a) else none
          | .own t a => if t = tag then some (none, a) else none
          | .atomic t d a _ _ _ _ => if t = tag then some (d, a) else none
          | .cas t d a _ _ => if t = tag then some (d, a) else none
          | _ => none)
        let s2 := match r.op, part, r.chip, dst with
          | none, some p, some chip, some (_, a) => { s1 with tagUses := aput (tagKey r.key p chip a) tag s1.tagUses }
          | _, _, _, _ => s1
        .next (s2.failPart tag r 2 0 32 (k == .atomic && r.chip.isNone))
/-- One outstanding request of a failed port (R378): its copy leaves on another port with its own tag, or no port reaches the
target and it fails. One that still waits for its request context only changes its port. -/
def State.reroute (s : State) (tag : Nat) (r : Request) : State :=
  let rva := match r.target with
    | .peer _ _ va => va
    | _ => 0
  match r.chip.bind (fun c => s.portTo (s.linkPart r.core r.ctxid) c rva), s.out.find? (fun m => m.tag? == some tag) with
  | some p, some m => (({ s with requests := aput tag { r with port := some p } s.requests } : State).copySent r.chip tag).send m
  | some p, none => { s with requests := aput tag { r with port := some p } s.requests }
  | _, _ => match r.kind with
    | .posted => s.failPosted tag r 3
    | .tsend => s.landPart tag r (leBytes 5 1)
    | _ => s.failPart tag r 3 0 33 false
/-- UALINK_PORT_FAIL (R378). -/
def execUalinkPortFail (port : Nat) (s : State) : Out State :=
  if 16 ≤ port || !s.portsUp.getLsbD port then .fault .notNow
  else
    let s1 := { s with portsUp := s.portsUp &&& ~~~(1#16 <<< port) }.linkEvent none port 33
    .next ((s.requests.filter (fun e => e.2.port == some port)).foldl (fun s e => s.reroute e.1 e.2) s1)
/-- UALINK_PORT_RETRAIN (R380, R386): without a pod configuration the ports stay down. -/
def execUalinkPortRetrain (port : Nat) (s : State) : Out State :=
  if 16 ≤ port then .fault .noTarget
  else if !s.podInstalled then .fault .notNow
  else .next ({ s with portsUp := s.portsUp ||| (1#16 <<< port) }.linkEvent none port 0)

/-! ## What peers send (R333, R378, R379) -/

/-- Sectors of device memory that another agent is about to use leave the stashes (R139). -/
def State.recallRun (s : State) (pa n : Nat) : State := (sectorsOf pa n).foldl (fun s q => s.recall noCore (64 * q)) s
/-- The bytes that an inbound access of device memory gives, and what it leaves (R333, R171, R172, R174); poisoned data of the peer
poisons what it writes (R147). -/
def State.peerPerform (s0 : State) (pa : Nat) (req : PeerReq) : State × List Byte × Bool :=
  let size := req.size
  let s := s0.recallRun pa size
  let old := s.readPhysN pa size
  let poison := s.physPoison pa size
  match req.kind with
  | .load => (s, old, poison)
  | .store data => (s.writePhysN pa data req.poison, [], false)
  | .atomic op ty x =>
    (s.writePhysN pa (leBytes (combine op ty (8 * size) (leNat old) (leNat x % 2 ^ (8 * size))) size) (req.poison || (poison && op != .exch)),
      old, poison)
  | .cas cmp new => (if !poison && old == cmp then s.writePhysN pa new req.poison else s, old, poison)
/-- A response of the target, kept for its request context (R379). -/
def State.respond (s : State) (chip tag status : Nat) (data : List Byte) : State :=
  let k : Kept := { chip, ctx := tag % 2 ^ 15, tag := tag % 2 ^ 16, status, data, since := s.tick }
  { s with kept := s.kept.filter (fun (x : Kept) => !(x.chip == chip && x.ctx == tag % 2 ^ 15)) ++ [k] }.send (.response chip tag status data)
/-- 2 ms of the tick. -/
def keptTime : DWord := 2000000
/-- The kept response of which an arriving request is a duplicate (R379). -/
def State.keptOf (s : State) (chip tag : Nat) : Option Kept :=
  s.kept.find? (fun x => x.chip == chip && x.ctx == tag % 2 ^ 15 && x.tag == tag % 2 ^ 16 && decide (s.tick - x.since < keptTime))
/-- UALINK_INBOUND_ACCESS (R333, R379): a duplicate receives the kept response and is not performed again. -/
def execUalinkInboundAccess (req : PeerReq) (s : State) : Out State :=
  match s.keptOf req.chip req.tag with
  | some x => .next (s.send (.response req.chip req.tag x.status x.data))
  | none =>
    let ctxid := BitVec.ofNat 16 req.ctxid
    match s.inbound ctxid req.va (req.kind != .load) with
    | .error k => .next ((s.inboundFault ctxid k req.va).respond req.chip req.tag k [])
    | .ok pa =>
      let q := s.peerPerform pa req
      .next (q.1.respond req.chip req.tag (if q.2.2 then 34 else 0) q.2.1)
/-- An Accept for a context by no group (R272 to R274): the status and the state. -/
def State.acceptFor (s : State) (ctxid : BitVec 16) (e : Nat) (payload : DWord) (snd : Word) : Nat × State :=
  match s.ctxCore ctxid with
  | none => (1, s)
  | some c => s.accept c ctxid e payload snd
/-- UALINK_TETHER_REQUEST (R379): no request reaches endpoint 63 (R283), and RANGE answers one that names it. -/
def execUalinkTetherRequest (srcChip : Nat) (tag : Nat) (sender : BitVec 32) (ctxid : Nat) (ep : Nat) (payload : BitVec 64) (s : State) :
    Out State :=
  match s.keptOf srcChip tag with
  | some x => .next (s.send (.response srcChip tag x.status x.data))
  | none =>
    let q := if 62 < ep then (6, s) else s.acceptFor (BitVec.ofNat 16 ctxid) ep payload sender
    .next (q.2.respond srcChip tag q.1 [])
/-- KEPT_RESPONSE_EXPIRE (R379): the 2 ms of a kept response have passed. -/
def execKeptResponseExpire (srcChip ctx : Nat) (s : State) : Out State :=
  match s.kept.find? (fun x => x.chip == srcChip && x.ctx == ctx) with
  | none => .fault .noTarget
  | some k =>
    if s.tick - k.since < keptTime then .fault .notNow
    else .next { s with kept := s.kept.filter (fun x => !(x.chip == srcChip && x.ctx == ctx)) }

/-! ## Host accesses (R183, R369, R388, R390) -/

/-- Whether the host port carries CXL.cache and CXL.mem (R369): it is up, and has not trained as PCIe. -/
def State.cxlUp (s : State) : Bool := s.hostUp && s.hostCxl
/-- HOST_SNOOP (R183, R369): the 64-byte host line at a host physical address, found by the physical record (R328). Its dirty bytes go to
the host with the answer, poisoned where the sector is; the device keeps a clean copy that is not its own, or none where the host takes
the line. A line that a link is still bringing is kept no better. -/
def execHostSnoop (pa : Nat) (own : Bool) (s : State) : Out State :=
  if !s.cxlUp then .fault .notNow
  else
    let base := hostBase + pa % 2 ^ 51 / 64 * 64
    let here (k : Nat) : Bool := k / 64 == base / 64
    let dirty := s.llcHost.filter (fun e => here e.1 && e.2.2)
    let bad := s.memPoison.contains (base / 64)
    let msg : Msg := .host (if dirty.isEmpty then 0 else 1) (BitVec.ofNat 64 ((dirty.map (fun e => 2 ^ (e.1 % 64))).sum))
      (dirty.map (fun e => e.2.1)) (bad && !dirty.isEmpty)
    let left := if own then s.llcHost.filter (fun e => !here e.1) else s.llcHost.map (fun e => if here e.1 then (e.1, (e.2.1, false)) else e)
    .next ({ s with
      llcHost := left, llcOwned := setDel (base / 64) s.llcOwned,
      llcTag := if left.any (fun e => e.1 / 256 == base / 256) then s.llcTag else adel (base / 256) s.llcTag,
      memPoison := if own then setDel (base / 64) s.memPoison else s.memPoison,
      requests := s.requests.map (fun (e : Nat × Request) => match e.2.target with
        | .host p _ => if here p then (e.1, { e.2 with own := false, llc := if own then none else e.2.llc }) else e
        | _ => e) }.send msg)
/-- The partition whose device memory holds an address. -/
def State.partOfMem (s : State) (pa : Nat) : Option Nat := (s.parts.find? (fun e => s.inStacks e.1 pa)).map Prod.fst
/-- HOST_HDM_ACCESS (R183, R369, R388, R390): status 1 answers a read with poison. The host holds a copy of what it has read until it writes
it or a back-invalidate snoop takes it (DEDUCED, log 64). -/
def execHostHdmAccess (pa : Nat) (size : Nat) (write : Bool) (data : List (BitVec 8)) (poison : Bool) (s : State) : Out State :=
  if !s.cxlUp then .fault .notNow
  else match s.partOfMem pa with
  | none => .fault .noPhysical
  | some p =>
    let barred := s.secureFrame pa || (s.part p).resetting
    if write then
      if barred then .next s
      else
        let s1 := { s with hostHeld := (sectorsOf pa data.length).foldl (fun l q => setDel q l) s.hostHeld }
        .next ((s1.recallRun pa data.length).writePhysN pa data poison)
    else if barred then .next (s.send (.host 1 0 [] true))
    else
      let bad := s.physPoison pa size
      let s1 := { s with hostHeld := (sectorsOf pa size).foldl (fun l q => setAdd q l) s.hostHeld }
      .next ((s1.recallRun pa size).send (.host (if bad then 1 else 0) 0 (s.readPhysN pa size) bad))
/-- Lowered code found poisoned in the translation cache is discarded, to be lowered again (R348). No rule says where in a partition's reserve
a unit stands: poison anywhere in the reserve takes all of its partition's units (DESIGN CHOICE, log 65; an eviction may come at any time). -/
def State.poisonUnits (s : State) (pa : Nat) : State :=
  (List.range s.parts.length).foldl (fun s p =>
    let base := (s.part p).info.fwres
    if base ≤ pa && pa < base + 0x20000000 then s.dropUnits p (fun _ => true) else s) s
/-- MEMORY_POISON_FOUND (R348, R367): the sector is poisoned, and the record is of TYPE 2. -/
def execMemoryPoisonFound (pa : Nat) (s : State) : Out State :=
  if hbmEnd ≤ pa && pa < hostBase then .fault .noPhysical
  else .next (({ s with memPoison := setAdd (pa / 64) s.memPoison }.poisonUnits pa).logEvent true 2 ((s.partOfMem pa).getD 0) 0xFF 0
    [BitVec.ofNat 64 (pa % 2 ^ 32), BitVec.ofNat 64 (pa / 2 ^ 32)])

/-! ## The core's caches (R140, R143, R325) -/

/-- L1_EVICTION (R140): the line's dirty bytes are written back, and the line goes. -/
def execL1Eviction (core asid : Nat) (va : BitVec 64) (s : State) : Out State :=
  let line := lkey asid (va57 va) / 256
  if (s.core core).l1.any (fun e => e.1 / 256 == line) then .next (s.evictL1 core line) else .fault .noTarget
/-- PERMISSION_CACHE_FILL (R143, R324): a walk that faults makes no entry. -/
def execPermissionCacheFill (core ctx : Nat) (va : BitVec 64) (s : State) : Out State :=
  if (aget? core s.cores).isNone then .fault .noTarget
  else
    let w : Who := if ctx = 0 then
        { core, part := (s.core core).part, asid := 0, root := s.root0 (s.core core).part, user := false, secure := true, ctxid := 0, ok := true }
      else s.whoCtx core (BitVec.ofNat 16 ctx)
    match s.permLookup w va with
    | .ok e => .next (s.fillPerm core e)
    | .error _ => .next s
/-- PERMISSION_CACHE_EVICTION (R325). -/
def execPermissionCacheEviction (core idx : Nat) (s : State) : Out State :=
  match (s.core core).perm[idx]? with
  | some e => .next (s.evictPerm core e)
  | none => .fault .noTarget

/-! ## Host warm restart (R381) -/

/-- The live contexts of a partition: the CTXID and the descriptor. -/
def State.partCtxs (s : State) (p : Nat) : List (BitVec 16 × Desc) :=
  match s.tableCore p with
  | none => []
  | some c => (List.range 1023).filterMap (fun k =>
      match (s.rawDesc c (BitVec.ofNat 16 (k + 1))).filter (fun d => d.live && d.part == p) with
      | some d => some (BitVec.ofNat 16 (k + 1 + 1024 * d.gen), d)
      | none => none)
/-- The host bytes that a core's L1 holds dirty are discarded (R381 step 3): the state, with the contexts that lose bytes. -/
def State.dropHostL1 (s : State) (c : Nat) : State :=
  let k := s.core c
  let gone := k.perm.filter (fun e => e.stripe.isNone && hostBase ≤ e.pa)
  let inPage (e : PermEntry) (key : Nat) : Bool := (e.glob || e.asid == key / 2 ^ 57) && key % 2 ^ 57 / 2 ^ e.bits == e.va / 2 ^ e.bits
  let lost := (gone.filter (fun e => k.l1.any (fun x => x.2.2 && inPage e x.1))).map (fun e => e.ctxid.toNat)
  { s.dropBytes c (fun key => gone.any (fun e => inPage e key)) with hostLost := lost.foldl (fun l x => setAdd x l) s.hostLost }
/-- Every host line of the last-level cache is discarded (R381 step 3). -/
def State.dropHostLines (s : State) : State :=
  let dirty (l : Nat) : Bool := s.llcHost.any (fun e => e.2.2 && e.1 / 256 == l)
  let lost := (s.llcTag.filter (fun e => dirty e.1)).map (fun e => e.2.ctxid.toNat)
  { s.dropLines (fun l => hostBase ≤ 256 * l) with llcHost := [], hostLost := lost.foldl (fun l x => setAdd x l) s.hostLost }
/-- The permission entries of KIND 01 of a context's endpoints are cleared (R265, R381 step 5). -/
def State.clearHostPerms (s : State) (p : Nat) (d : Desc) : State :=
  (List.range 64).foldl (fun s e =>
    let r := s.ep p d e
    let l : List DWord := r.perm.map (fun (x : DWord) => if (x.extractLsb' 30 2).toNat = 1 then x &&& ~~~(1#64 <<< 63) else x)
    if l == r.perm then s else s.setEp p d e { r with perm := l, nperm := (l.filter (fun x => x.getLsbD 63)).length }) s
/-- A host request in flight ends with link code 36 (R381 step 2). -/
def State.dropHostRequest (s : State) (tag : Nat) (r : Request) : State :=
  match r.kind with
  | .posted => s.failPosted tag r (3 + 2 ^ 40 * 36)
  | _ => s.failPart tag r 3 0 36 false
/-- Steps 1, 2 and 5 of R381 for one context: the flag, the stop of its blocks, each of which waits for its swap as under STOP, its host
permissions. Its blocks on return lists are held for CONT too (R382). -/
def State.orphan (s : State) (p : Nat) (ctxid : BitVec 16) (d : Desc) : State :=
  match s.tableCore p with
  | none => s
  | some c =>
    let s0 := s.setFlags c ctxid (d.flags ||| 8)
    let s1 := if d.orphaned then s0 else { s0 with hostOrphans := aput ctxid.toNat s.tick s0.hostOrphans }
    let s2 := (s1.ctxBlocks p ctxid).foldl (fun s e =>
      let s3 := s.modBlock e.1 (fun k => { k with stopped := true })
      if s3.requested e.2.core e.1 then s3 else s3.requestSwap e.1 e.2 3) s1
    let s3 := { s2 with grids := s2.grids.map (fun (e : Nat × Grid) =>
      if e.2.part == p && e.2.ctxid == ctxid then (e.1, { e.2 with returns := e.2.returns.map (fun (x : Swapped) => { x with held := true }) }) else e) }
    s3.clearHostPerms p d
/-- HOST_PORT_DOWN (R381): the stopped blocks leave as soon as their accesses are settled (`State.orphanSwap`). What a debug stop holds does not
change (R358). -/
def execHostPortDown (s : State) : Out State :=
  if !s.hostUp then .fault .notNow
  else
    let s1 := (s.parts.filter (fun q => !s.gatedPart q.1)).foldl (fun s q => (s.partCtxs q.1).foldl (fun s x => s.orphan q.1 x.1 x.2) s) s
    let s2 := (s1.requests.filter (fun e => e.2.chip.isNone && e.2.kind != .tsend && !s.gatedPart (s.makerPart e.2))).foldl (fun s e => s.dropHostRequest e.1 e.2) s1
    let s3 := ((s2.cores.map Prod.fst).filter (fun c => !s.gated c)).foldl (fun s c => s.dropHostL1 c) s2
    .next ({ s3.dropHostLines with hostUp := false, portDownTick := s.tick, doorbells := [] }.linkEvent none hostPortNo 33)
/-- What a stopped block of an orphaned context whose accesses are settled does (R381 step 2): a publish runs on its core, and once the
posted writes are acknowledged it is swapped out under mode 1 (R162, R308). -/
def State.orphanSwap (s : State) : Option State :=
  s.blocks.findSome? (fun e =>
    if !e.2.stopped || s.gated e.2.core || !((s.rawDesc e.2.core e.2.ctxid).map Desc.orphaned).getD false then none
    else (s.swapStep e.1 e.2 1).map Prod.fst)
/-- HOST_PORT_UP (R369, R380, R384): a device whose boot has stopped trains the port as PCIe alone, for its configuration space. -/
def execHostPortUp (cxl atomicOp : Bool) (s : State) : Out State :=
  if s.hostUp then .fault .notNow
  else .next ({ s with hostUp := true, hostCxl := cxl && s.booted, atomicOpEn := atomicOp }.linkEvent none hostPortNo 0)

end Sys2Proof.Machine
end

