-- ==== Sys2Proof/Machine/Loader.lean ====
section
/-! DEFINITION. The loader (R67 to R71, R342, R343): the checks of an object in their order, relocation, and the placement. -/
namespace Sys2Proof.Machine

/-- n bytes at offset o as a number. -/
def objNat (b : List Byte) (o n : Nat) : Nat := leNat ((b.drop o).take n)
/-- A section record (R68), with its placement. -/
structure ObjSection where
  name : Nat
  kind : Nat
  align : Nat
  size : Nat
  off : Nat
  reserved : Nat
  place : DWord
deriving DecidableEq, Repr
/-- A symbol record (R68). -/
structure ObjSymbol where
  name : Nat
  sect : Nat
  bind : Nat
  kind : Nat
  value : Nat
  size : Nat
deriving DecidableEq, Repr
/-- A relocation record (R68). -/
structure ObjReloc where
  site : Nat
  sect : Nat
  kind : Nat
  flags : Nat
  sym : Nat
  addend : DWord
deriving DecidableEq, Repr
/-- An entry record (R68): its bytes, from which its fields are read. -/
structure ObjEntry where
  bytes : List Byte
deriving DecidableEq, Repr
/-- An object (R67): its bytes and its tables. -/
structure Obj where
  bytes : List Byte
  sections : List ObjSection
  symbols : List ObjSymbol
  relocs : List ObjReloc
  entries : List ObjEntry
deriving DecidableEq, Repr

/-- The tables of R67: the offset and count fields of the header, and the record's size. -/
def objTables (b : List Byte) : List (Nat × Nat) :=
  [(objNat b 0x10 8, 32 * objNat b 0x38 4), (objNat b 0x18 8, 24 * objNat b 0x3C 4), (objNat b 0x20 8, 24 * objNat b 0x40 4),
    (objNat b 0x28 8, objNat b 0x48 4), (objNat b 0x30 8, 208 * objNat b 0x44 4)]
/-- The bytes of a name, without its NUL; none where it does not end within the string table. -/
def objName (b : List Byte) (o : Nat) : Option (List Byte) :=
  let t := (b.drop (objNat b 0x28 8)).take (objNat b 0x48 4)
  let n := (t.drop o).takeWhile (· != 0)
  if o + n.length < t.length then some n else none
/-- The object of a file's bytes and its placements. -/
def objOf (b : List Byte) (places : List DWord) : Obj :=
  let f := objNat b
  { bytes := b,
    sections := (List.range (f 0x38 4)).map (fun k =>
      let o := f 0x10 8 + 32 * k
      { name := f o 4, kind := f (o + 4) 2, align := f (o + 6) 2, size := f (o + 8) 8, off := f (o + 16) 8, reserved := f (o + 24) 8,
        place := places.getD k 0 }),
    symbols := (List.range (f 0x3C 4)).map (fun k =>
      let o := f 0x18 8 + 24 * k
      { name := f o 4, sect := f (o + 4) 2, bind := f (o + 6) 1, kind := f (o + 7) 1, value := f (o + 8) 8, size := f (o + 16) 8 }),
    relocs := (List.range (f 0x40 4)).map (fun k =>
      let o := f 0x20 8 + 24 * k
      { site := f o 8, sect := f (o + 8) 2, kind := f (o + 10) 1, flags := f (o + 11) 1, sym := f (o + 12) 4,
        addend := BitVec.ofNat 64 (f (o + 16) 8) }),
    entries := (List.range (f 0x44 4)).map (fun k => { bytes := (b.drop (f 0x30 8 + 208 * k)).take 208 }) }

/-- The section of a symbol (R68): none for the section numbers 0xFFFD to 0xFFFF, which name no section. -/
def Obj.sectionOf (o : Obj) (x : ObjSymbol) : Option ObjSection := if x.sect < 0xFFFD then o.sections[x.sect]? else none
/-- Whether a symbol stands in a code section. -/
def Obj.inCode (o : Obj) (x : ObjSymbol) : Bool := (o.sectionOf x).any (fun q => q.kind == 0)
/-- FORMAT (status 1) on the header and the tables' places. -/
def objHeadBad (b : List Byte) : Bool :=
  b.length < 0x50 || b.take 4 != [0x53, 0x58, 0x4F, 0x00] || objNat b 4 2 != 1 || objNat b 8 4 / 4 != 0 || objNat b 0x0C 4 != 0 ||
    objNat b 0x4C 4 != 0 || (objTables b).any (fun t => t.1 % 8 != 0 || b.length < t.1 + t.2)
/-- FORMAT (status 1) on the names. -/
def objNamesBad (o : Obj) : Bool :=
  (o.sections.map ObjSection.name ++ o.symbols.map ObjSymbol.name ++ o.entries.map (fun e => objNat e.bytes 0 4)).any
    (fun n => (objName o.bytes n).isNone)
/-- The first index whose record is bad. -/
def firstBad {α : Type} (l : List α) (bad : Nat → α → Bool) : Option Nat :=
  (List.range l.length).find? (fun k => (l[k]?.map (bad k)).getD false)
/-- MALFORMED for a section record and its placement; an overlap counts for the later of the two. Contents that reach beyond the object's
bytes count as a broken record (DESIGN CHOICE, log 61: R68 and R343 name no status for them). -/
def sectionBad (o : Obj) (k : Nat) (x : ObjSection) : Bool :=
  1 < x.kind || x.align < 3 || 16 < x.align || (x.kind == 0 && x.size % 8 != 0) || x.reserved != 0 || o.bytes.length < x.off + x.size ||
    x.place.toNat % 2 ^ x.align != 0 || !canonical x.place || (x.size != 0 && !lastOk x.place x.size) ||
    (o.sections.take k).any (fun y => x.place.toNat < y.place.toNat + y.size && y.place.toNat < x.place.toNat + x.size)
/-- MALFORMED for a symbol record: exactly the extern symbols are undefined, a function stands in a code section with all its bytes, an entry
is global, and the windows, and they alone, are of the scratchpad (R65). -/
def symbolBad (o : Obj) (x : ObjSymbol) : Bool :=
  (o.sections.length ≤ x.sect && x.sect < 0xFFFD) || 2 < x.bind || 5 < x.kind || ((x.bind == 2) != (x.sect == 0xFFFF)) ||
    (x.kind == 1 && x.bind != 2 && !(o.sectionOf x).any (fun q => q.kind == 0 && x.value + x.size ≤ q.size)) || (x.kind == 2 && x.bind != 1) ||
    (x.bind != 2 && ((x.kind == 4 || x.kind == 5) != (x.sect == 0xFFFE)))
/-- The I-form opcodes (R49). -/
def objIForm (op : Nat) : Bool := isIForm op || [0x00F, 0x160, 0x161, 0x162, 0x163, 0x169, 0x16A, 0x17C].contains op
/-- The B-form opcodes (R49). -/
def objBForm (op : Nat) : Bool := [0x002, 0x004, 0x007, 0x008, 0x00A, 0x00B, 0x00C, 0x00D].contains op
/-- The 8 bytes of a site. -/
def objSite (o : Obj) (x : ObjReloc) : DWord :=
  BitVec.ofNat 64 (objNat o.bytes (((o.sections[x.sect]?).map ObjSection.off).getD 0 + x.site) 8)
/-- MALFORMED for a relocation record (R68, R70): the word's form decides, whichever section it stands in. ABS64 takes a data section
alone, and two relocations of one site patch one field (DESIGN CHOICE, log 61: R70 does not define a data site). -/
def relocBad (o : Obj) (k : Nat) (x : ObjReloc) : Bool :=
  match o.sections[x.sect]? with
  | none => true
  | some q =>
    let w := objSite o x
    let full := !w.getLsbD 63
    let shape := match x.kind with
      | 0 | 1 => full && objIForm (opField w)
      | 2 => full && isMForm (opField w)
      | 3 => full && objBForm (opField w)
      | 4 => q.kind == 1
      | _ => false
    x.site % 8 != 0 || q.size < x.site + 8 || !shape || 1 < x.flags ||
      o.symbols.length ≤ x.sym || (o.relocs.take k).any (fun y => y.sect == x.sect && y.site == x.site)
/-- MALFORMED for an entry record (R65, R68): also where LOCAL or STASH is no multiple of 4,096 or both together exceed 768 KiB, the sizes
that R66 gives an entry (DESIGN CHOICE, log 61: R343 does not name R66). A slot that FMTMASK does not name is zero, and NAME is that of a global
entry symbol. -/
def entryBad (o : Obj) (x : ObjEntry) : Bool :=
  let f := objNat x.bytes
  let nrole := f 4 1
  let role (i : Nat) : Bool :=
    let r := 0x10 + 16 * i
    let sym := o.symbols[f r 4]?
    f (r + 5) 1 == 0 || f (r + 6) 1 < f (r + 5) 1 || 32 < f (r + 6) 1 || f (r + 7) 8 != 0 || f (r + 15) 1 != 0 ||
      !(sym.any (fun y => y.kind ≤ 1 && o.inCode y))
  let named : Bool := (objName o.bytes (f 0 4)).any (fun n => o.symbols.any (fun y => y.kind == 2 && y.bind == 1 && objName o.bytes y.name == some n))
  !named || nrole == 0 || 4 < nrole || f 5 1 == 1 || 16 < f 5 1 || 64 < f 6 1 || f 8 4 % 4096 != 0 || f 12 4 % 4096 != 0 ||
    0xC0000 < f 8 4 + f 12 4 || (List.range (min 4 nrole)).any role ||
    32 < ((List.range (min 4 nrole)).map (fun i => f (0x14 + 16 * i) 1)).sum ||
    ((List.range (min 4 nrole)).map (fun i => f (0x14 + 16 * i) 1)).sum == 0 ||
    (List.range 8).any (fun i => f 7 1 / 2 ^ i % 2 == 0 && f (0x50 + 8 * i) 8 != 0) ||
    (List.range 4).any (fun i => nrole ≤ i && (f (0x10 + 16 * i) 8 != 0 || f (0x18 + 16 * i) 8 != 0)) ||
    (List.range 8).any (fun i => f (0x90 + 8 * i) 8 != 0)
/-- MALFORMED (status 4): the index of the record, in the order sections, symbols, relocations, entries. -/
def objMalformed (o : Obj) : Option Nat :=
  (firstBad o.sections (sectionBad o)).or ((firstBad o.symbols (fun _ => symbolBad o)).or
    ((firstBad o.relocs (relocBad o)).or (firstBad o.entries (fun _ => entryBad o))))
/-- FEATURE (status 5): the version gate of R342. -/
def featureBad (major minor : Nat) (x : ObjEntry) : Bool :=
  let f := objNat x.bytes
  (major == 1 && (f 5 1 != 0 || f 7 1 != 0 || f 12 4 != 0)) || (major == 2 && minor == 0 && f 12 4 != 0)
/-- The first definition of a global name in a context's registry, in load order. -/
def State.registryFind (s : State) (ctxid : BitVec 16) (name : List Byte) : Option DWord :=
  s.objects.findSome? (fun x => if x.ctxid == ctxid && x.ok then (x.syms.find? (fun q => q.1 == name)).map Prod.snd else none)
/-- The final address or value of a symbol (R69). -/
def State.symValue (s : State) (ctxid : BitVec 16) (o : Obj) (x : ObjSymbol) : Option DWord :=
  if x.bind = 2 then (objName o.bytes x.name).bind (s.registryFind ctxid)
  else match o.sectionOf x with
    | some q => some (q.place + BitVec.ofNat 64 x.value)
    | none => some (BitVec.ofNat 64 x.value)
/-- The word of a site after its relocation (R69); none where the value does not fit. -/
def relocWord (x : ObjReloc) (sym site w : DWord) : Option DWord :=
  let v : Int := (sym.toNat : Int) + x.addend.toInt
  let low (n : Int) : DWord := (w &&& ~~~0xFFFFFFFF#64) ||| (BitVec.ofInt 32 n).zeroExtend 64
  let in64 := -(2 ^ 63 : Int) ≤ v && v < 2 ^ 64
  match x.kind with
  | 0 => if x.flags = 1 || (-(2 ^ 31 : Int) ≤ v && v < 2 ^ 32) then some (low v) else none
  | 1 => if in64 then some (low (v / 2 ^ 32)) else none
  | 2 => if -32768 ≤ v && v ≤ 32767 then some ((w &&& ~~~0xFFFF#64) ||| (BitVec.ofInt 16 v).zeroExtend 64) else none
  | 3 =>
    let d := v - site.toNat
    if d % 8 = 0 && -(2 ^ 23 : Int) ≤ d / 8 && d / 8 < 2 ^ 23 then
      some ((w &&& ~~~(0xFFFFFF#64 <<< 26)) ||| ((BitVec.ofInt 24 (d / 8)).zeroExtend 64 <<< 26))
    else none
  | _ => if in64 then some (BitVec.ofInt 64 v) else none
/-- The relocated word of a relocation, in the object's own bytes. -/
def State.relocOf (s : State) (ctxid : BitVec 16) (o : Obj) (x : ObjReloc) : Option DWord :=
  match o.sections[x.sect]?, (o.symbols[x.sym]?).bind (s.symValue ctxid o) with
  | some q, some v => relocWord x v (q.place + BitVec.ofNat 64 x.site) (objSite o x)
  | _, _ => none
/-- The contents of a section with the relocations applied. -/
def State.sectionBytes (s : State) (ctxid : BitVec 16) (o : Obj) (k : Nat) (q : ObjSection) : List Byte :=
  (o.relocs.filter (fun x => x.sect == k)).foldl (fun b x => match s.relocOf ctxid o x with
    | some w => b.take x.site ++ leBytes w.toNat 8 ++ b.drop (x.site + 8)
    | none => b) ((o.bytes.drop q.off).take q.size)
/-- The physical parts of a section's placement through the context's tables; none where R343 refuses a page with MAP. -/
def State.placeParts (s : State) (w : Who) (q : ObjSection) : Option (List (Nat × Nat)) :=
  if q.size = 0 then some []
  else (pageSpans q.place q.size).mapM (fun x =>
    match (if w.ok then s.walk w.part w.ctxid w.asid w.root (va57 x.1) false else .error kPTEMEM) with
    | .error _ => none
    | .ok e =>
      if e.stripe.isSome || hbmEnd ≤ e.pa || !e.u || (q.kind == 0 && !e.x) then none else some (e.pa + va57 x.1 % 2 ^ e.bits, x.2))
/-- The check of an object (R343): the status and the index. -/
def State.loadStatus (s : State) (w : Who) (b : List Byte) (places : List DWord) : Nat × Nat :=
  let o := objOf b places
  let major := objNat b 6 1
  let minor := objNat b 7 1
  if objHeadBad b || objNamesBad o then (1, 0)
  else if !(major == 1 || (major == 2 && minor ≤ 1)) then (2, 0)
  else if objNat b 8 4 % 2 = 0 then (3, 0)
  else match objMalformed o with
    | some n => (4, n)
    | none => match firstBad o.entries (fun _ => featureBad major minor) with
      | some n => (5, n)
      | none => match firstBad o.symbols (fun _ x => (s.symValue w.ctxid o x).isNone) with
        | some n => (6, n)
        | none => match firstBad o.relocs (fun _ x => (s.relocOf w.ctxid o x).isNone) with
          | some n => (7, n)
          | none => match firstBad o.sections (fun _ q => (s.placeParts w q).isNone) with
            | some n => (8, n)
            | none =>
              if 4096 ≤ (((s.objects.filter (fun x => x.ctxid == w.ctxid)).map LoadedObject.obj).eraseDups).length then (9, 0) else (0, 0)
/-- The object's global symbols with their final values. -/
def State.objGlobals (s : State) (ctxid : BitVec 16) (o : Obj) : List (List Byte × DWord) :=
  (o.symbols.filter (fun x => x.bind == 1)).filterMap (fun x => match objName o.bytes x.name, s.symValue ctxid o x with
    | some n, some v => some (n, v)
    | _, _ => none)
/-- An accepted object placed (R343 steps 1 and 2): its bytes stand in memory, what was lowered there goes (R347), and its placements
are noted as being loaded, with the registry's record still to come. -/
def State.placeObject (s : State) (w : Who) (b : List Byte) (places : List DWord) : State :=
  let o := objOf b places
  let num := s.objects.foldl (fun n x => max n (x.obj + 1)) 0
  let idx := List.range o.sections.length
  let s1 := (idx.zip o.sections).foldl (fun (t : State) q => match s.placeParts w q.2 with
    | some parts => (parts.foldl (fun t p => t.recallRun p.1 p.2) t).putParts parts (s.sectionBytes w.ctxid o q.1 q.2)
    | none => t) s
  let s2 := o.sections.foldl (fun t q => t.dropCode w.part w.asid q.place q.size) s1
  let version := 256 * objNat b 6 1 + objNat b 7 1
  let entries : List LoadedObject := (idx.zip o.sections).map (fun q =>
    { ctxid := w.ctxid, obj := num, version, start := q.2.place, len := q.2.size, code := q.2.kind == 0, ok := false, syms := [] })
  let bare : LoadedObject := { ctxid := w.ctxid, obj := num, version, start := 0, len := 0, code := false, ok := false, syms := [] }
  let syms := s.objGlobals w.ctxid o
  { s2 with objects := s2.objects ++ (match entries with
    | [] => [{ bare with syms }]
    | x :: t => { x with syms } :: t) }
/-- The registry's record of the object being loaded for a context (R343 step 3). -/
def State.recordObjects (s : State) (ctxid : BitVec 16) : State :=
  { s with objects := s.objects.map (fun x => if x.ctxid = ctxid then { x with ok := true } else x) }

end Sys2Proof.Machine
end

