-- ==== Sys2Proof/Machine/HostPort.lean ====
section
/-! DEFINITION. What the host and the peer port ask of the device (R257, R273, R364, R369 to R377, R382): the host block, submissions,
doorbells, landing windows, pre-emption, tracing and the end of GRACE. -/
namespace Sys2Proof.Machine

/-! ## Submissions (R371) -/

/-- What an entry gives: its status and result, or none while a link must still bring what it reads. -/
abbrev Taken := Option (Nat × DWord) × State
/-- The entry is taken (R371): STATUS and RESULT are written to it in the ring, and then SQHEAD moves past it. -/
def State.finishEntry (s : State) (part status : Nat) (result : DWord) : State :=
  (s.modPart part (fun p =>
    { p with sqhead := BitVec.ofNat 64 ((p.sqhead.toNat + 1) % max 1 p.sqsize.toNat), sqPend := Pend.empty, sqBusy := none })).send
    (.submitted part ((s.part part).sqbase + 64 * (s.part part).sqhead) status result)
/-- Whether the device may take an entry: the ring holds one, and none is in progress. -/
def State.entryWaits (s : State) (part : Nat) : Bool :=
  let p := s.part part
  s.hostUp && part < s.parts.length && p.sqhead != p.sqtail && p.sqPend.waiting.isEmpty && p.sqBusy.isNone
/-- An entry of the ring is performed. -/
def takeEntry (part : Nat) (s : State) (f : State → Taken) : Out State :=
  if !s.entryWaits part then .fault .notNow
  else match f s with
    | (some (st, r), s1) => .next (s1.finishEntry part st r)
    | (none, s1) => .next s1
/-- The status of an entry for which the spec states none: a free value (DESIGN CHOICE, log 5). -/
def State.freeStatus (s : State) : Taken := (some ((Config.freeWord s.freeCtr).toNat % 65536, 0), s.takeFree 1)
/-- LAUNCH (R236, R371): the record is read through the context, at the point of coherence. The status for a context that is not
live, and for a record that cannot be read, is not stated. -/
def State.takeLaunch (part : Nat) (ctxid : BitVec 16) (va : DWord) (s : State) : Taken :=
  match (s.ctxCore ctxid).bind (fun c => s.desc c ctxid) with
  | none => s.freeStatus
  | some d =>
    if d.part ≠ part then s.freeStatus
    else
      let w := s.whoDist part ctxid
      let p := (s.part part).sqPend
      let readable := va.toNat % 64 == 0 && (List.range 4).all (fun k => match s.checkByte w .read (recordVa va k) true with
        | .ok _ => true
        | .error _ => false)
      if !readable then s.freeStatus
      else
        let q := readRecord s w va p
        if !q.needs.isEmpty then
          let x := q.s.requestSectors part w none p q.needs
          (none, x.1.modPart part (fun y => { y with sqPend := x.2 }))
        else if q.failed.isSome then q.s.freeStatus
        else
          let st := q.s.launchStatus part ctxid d q.bytes q.poison
          if st = 0 then
            let x := q.s.createGrid part ctxid d q.bytes 1 none
            (some (0, BitVec.ofNat 64 x.2), x.1)
          else (some (st, 0), q.s)
/-- LOAD (R343): an accepted object is in progress until its record is made. The status for a context that is not live in the partition,
and for bytes that context 0 does not reach, is not stated. -/
def State.takeLoad (part : Nat) (ctxid : BitVec 16) (addr size : DWord) (places : List DWord) (s : State) : Taken :=
  let live := ((s.ctxCore ctxid).bind (fun c => s.desc c ctxid)).any (fun d => d.part == part)
  match s.ctx0Read part addr size.toNat with
  | .error _ => s.freeStatus
  | .ok b =>
    let w := s.whoDist part ctxid
    let st := s.loadStatus w b places
    if !live then s.freeStatus
    else if st.1 = 0 then (none, (s.placeObject w b places).modPart part (fun p => { p with sqBusy := some (.load ctxid) }))
    else (some (st.1, BitVec.ofNat 64 st.2), s)
/-- INVAL (R335, R336): the entry is done once the accesses that were outstanding are performed and the host has accepted what was written
back. REDs that wait for their sector are performed before the entries go. -/
def State.takeInval (part : Nat) (ctl start count : DWord) (s : State) : Taken :=
  let st := invStatus ctl.toNat start count.toNat
  match s.tableCore part with
  | none => (some (st, 0), s)
  | some c =>
    if st ≠ 0 then (some (st, 0), s)
    else if s.redsIn part then (none, s)
    else
      let s1 := s.invalidate part c (invRange ctl.toNat start count.toNat) (ctl.toNat / 2 ^ 18 % 2 = 1)
      match s1.openTags part with
      | [] => (some (0, 0), s1)
      | l => (none, s1.modPart part (fun p => { p with sqBusy := some (.inval l) }))
/-- The entry in progress on a partition's ring that is done: the load whose record is made now (R343 step 3), or the invalidation whose
waits have ended (R336). -/
def State.busyDone (s : State) (part : Nat) : Option State :=
  match (s.part part).sqBusy with
  | some (.load x) => some ((s.recordObjects x).finishEntry part 0 0)
  | some (.inval l) => if s.requests.any (fun e => l.contains e.1) then none else some (s.finishEntry part 0 0)
  | none => none
/-- The host-window leaves of a context's tables are made not present (R381 step 4), from a table at level lvl. -/
def State.clearHostLeaves (lvl table : Nat) (s : State) : State :=
  (List.range 512).foldl (fun s k =>
    let pa := table + 8 * k
    let e := s.physNat pa 8
    if e % 2 = 0 then s
    else
      let leaf (s : State) : State :=
        if pte e 9 1 == 0 && hostBase ≤ pte e 12 40 * 4096 then s.writePhysN pa (leBytes (e - 1) 8) false else s
      match lvl with
      | 0 => leaf s
      | l + 1 => if pte e 10 2 != 0 then leaf s else State.clearHostLeaves l (pte e 12 40 * 4096) s) s
/-- Whether a context's GRACE is over (R382): its seconds have passed since the failure of the host port that made it an orphan. -/
def State.graceOver (s : State) (part : Nat) (ctxid : BitVec 16) : Bool :=
  (s.part part).grace.toNat * 1000000000 ≤ (s.tick - aval s.portDownTick ctxid.toNat s.hostOrphans).toNat
/-- RECLAIM (R371, R382): the orphan with the token, within GRACE. -/
def State.takeReclaim (part : Nat) (token : DWord) (s : State) : Taken :=
  match (s.healthy part).head?, (s.partCtxs part).find? (fun x => x.2.orphaned && x.2.token == token && !s.graceOver part x.1) with
  | some c, some (ctxid, d) =>
    let s1 := (State.clearHostLeaves 4 d.ptroot (s.setFlags c ctxid (d.flags &&& 0xF7))).invalidate part c (invRange (2 ^ 17) 0 0) false
    (some (0, if s.hostLost.contains ctxid.toNat then 1 else 0), { s1 with hostLost := setDel ctxid.toNat s1.hostLost })
  | _, _ => (some (1, 0), s)
/-- BINDDB (R371, R373). -/
def State.takeBind (ctxid : BitVec 16) (page ctl : DWord) (s : State) : Taken :=
  if 65535 < page.toNat then (some (1, 0), s)
  else if (s.ctxCore ctxid).isNone then (some (2, 0), s)
  else if ctl.getLsbD 16 then (some (0, 0), { s with doorbells := adel page.toNat s.doorbells })
  else (some (0, 0), { s with doorbells := aput page.toNat { token := ctl &&& 0xFFFF, ctxid, status := [], fails := [] } s.doorbells })
/-- A window that nothing has bound. -/
def Window.blank : Window :=
  { enabled := false, ctxid := 0, base := 0, size := 0, endpoint := 0, psrc := 0, anyReq := false, reqId := 0, status := 0, faults := 0,
    refused := 0, performed := 0, high := 0 }
/-- Window n. -/
def State.window (s : State) (n : Nat) : Window := aval Window.blank n s.windows
/-- A window changed. -/
def State.modWindow (s : State) (n : Nat) (f : Window → Window) : State := { s with windows := aput n (f (s.window n)) s.windows }
/-- WINDOW (R376). A new binding starts the counts of its status word from 0 (DESIGN CHOICE, log 67). -/
def State.takeWindow (ctxid : BitVec 16) (n base ctl : DWord) (s : State) : Taken :=
  let f (lo k : Nat) : Nat := ctl.toNat / 2 ^ lo % 2 ^ k
  if 63 < n.toNat then (some (1, 0), s)
  else if f 44 1 = 0 then (some (0, 0), s.modWindow n.toNat (fun w => { w with enabled := false }))
  else if !canonical base || base.toNat % 4096 != 0 || f 0 36 == 0 || 16777216 < f 0 36 || 62 < f 36 6 || f 42 2 == 3 || f 46 2 != 0 then
    (some (1, 0), s)
  else if (s.ctxCore ctxid).isNone then (some (2, 0), s)
  else
    let w : Window :=
      { enabled := true, ctxid, base, size := f 0 36, endpoint := f 36 6, psrc := f 42 2, anyReq := f 45 1 == 1, reqId := f 48 16,
        status := 0, faults := 0, refused := 0, performed := 0, high := 0 }
    (some (0, 0), { s with windows := aput n.toNat w s.windows })
/-- An entry's 64 bytes (R371): a KIND outside the table or a reserved byte that is not 0 gives 0xFFFF. A LOAD's placements stand in host
memory, and SUBMIT_LOAD brings them. -/
def State.takeBytes (part : Nat) (b : List Byte) (s : State) : Option Taken :=
  let f := objNat b
  let kind := f 0 2
  let ctxid := BitVec.ofNat 16 (f 2 2)
  let a (k : Nat) : DWord := BitVec.ofNat 64 (f (8 + 8 * k) 8)
  if kind = 0 ∨ 6 < kind ∨ f 6 2 ≠ 0 ∨ (List.range 24).any (fun k => f (40 + k) 1 != 0) then some (some (0xFFFF, 0), s)
  else match kind with
    | 1 => some (s.takeLaunch part ctxid (a 0))
    | 2 => none
    | 3 => some (s.takeInval part (a 0) (a 1) (a 2))
    | 4 => some (s.takeReclaim part (a 0))
    | 5 => some (s.takeBind ctxid (a 0) (a 1))
    | _ => some (s.takeWindow ctxid (a 0) (a 1) (a 2))
/-- The entries that the device finds and can take at once, in ring order. -/
def State.takeEntries (s : State) (part : Nat) (l : List (List Byte)) : State :=
  match l with
  | [] => s
  | b :: t =>
    if !s.entryWaits part then s
    else match s.takeBytes part b with
      | some (some (st, r), s1) => (s1.finishEntry part st r).takeEntries part t
      | some (none, s1) => s1
      | none => s
/-- SQTAIL_WRITE (R370, R371): an index outside the ring leaves the field unchanged; `entries` are those that the device then reads. -/
def execSqtailWrite (part : Nat) (tail : BitVec 32) (entries : List (List (BitVec 8))) (s : State) : Out State :=
  if s.parts.length ≤ part || !s.hostUp then .fault .noTarget
  else if (s.part part).sqsize.toNat ≤ tail.toNat then .next s
  else .next ((s.modPart part (fun p => { p with sqtail := tail.zeroExtend 64 })).takeEntries part entries)
/-- SUBMIT_LAUNCH (R371). -/
def execSubmitLaunch (part ctxid : Nat) (va : BitVec 64) (s : State) : Out State :=
  takeEntry part s (State.takeLaunch part (BitVec.ofNat 16 ctxid) va)
/-- SUBMIT_LOAD (R343, R371). -/
def execSubmitLoad (part ctxid : Nat) (addr size : BitVec 64) (places : List (BitVec 64)) (s : State) : Out State :=
  takeEntry part s (State.takeLoad part (BitVec.ofNat 16 ctxid) addr size places)
/-- SUBMIT_INVAL (R371). -/
def execSubmitInval (part : Nat) (ctl start count : BitVec 64) (s : State) : Out State :=
  takeEntry part s (State.takeInval part ctl start count)
/-- SUBMIT_RECLAIM (R382): the token alone names the context. -/
def execSubmitReclaim (part ctxid : Nat) (token : BitVec 64) (s : State) : Out State :=
  let _ := ctxid
  takeEntry part s (State.takeReclaim part token)
/-- SUBMIT_BINDDB (R373). -/
def execSubmitBinddb (part ctxid : Nat) (a0 a1 : BitVec 64) (s : State) : Out State :=
  takeEntry part s (State.takeBind (BitVec.ofNat 16 ctxid) a0 a1)
/-- SUBMIT_WINDOW (R376). -/
def execSubmitWindow (part ctxid : Nat) (a0 a1 a2 : BitVec 64) (s : State) : Out State :=
  takeEntry part s (State.takeWindow (BitVec.ofNat 16 ctxid) a0 a1 a2)

/-! ## The host block (R370) -/

/-- A power of two from lo to hi. -/
def powerOf2 (lo hi n : Nat) : Bool := (List.range 32).any (fun k => n == 2 ^ k) && lo ≤ n && n ≤ hi
/-- A host-block field written: a value out of range leaves it unchanged, and a read-only field ignores the write. -/
def Partition.hostField (p : Partition) (off : Nat) (x : DWord) : Partition :=
  let n := x.toNat
  match off with
  | 0x000 => if n % 4096 = 0 then { p with sqbase := x } else p
  | 0x008 => if powerOf2 16 4096 (n % 2 ^ 32) then { p with sqsize := BitVec.ofNat 64 (n % 2 ^ 32) } else p
  | 0x018 => { p with hsqbase := x }
  | 0x020 => if powerOf2 16 4096 (n % 2 ^ 32) then { p with hsqsize := BitVec.ofNat 64 (n % 2 ^ 32) } else p
  | 0x028 => if n % 2 ^ 32 < p.hsqsize.toNat then { p with hsqhead := BitVec.ofNat 64 (n % 2 ^ 32) } else p
  | 0x030 => { p with trbase := x }
  | 0x038 => if n % 2 ^ 32 = 0 ∨ powerOf2 1 (2 ^ 31) (n % 2 ^ 32) then { p with trsize := BitVec.ofNat 64 (n % 2 ^ 32) } else p
  | 0x040 => if 1 ≤ n % 2 ^ 32 ∧ n % 2 ^ 32 ≤ 3600 then { p with grace := BitVec.ofNat 64 (n % 2 ^ 32) } else p
  | _ => p
/-- HOST_BLOCK_WRITE (R25, R370): it comes over the host port. -/
def execHostBlockWrite (part off : Nat) (value : BitVec 64) (s : State) : Out State :=
  if s.parts.length ≤ part || !s.hostUp then .fault .noTarget else .next (s.modPart part (fun p => p.hostField off value))

/-! ## Doorbell pages (R273, R373) -/

/-- HOST_DOORBELL_STORE (R273): an Accept with the page's token as sender, or a discard of TYPE 20. -/
def execHostDoorbellStore (page off : Nat) (size : Nat) (value : BitVec 64) (s : State) : Out State :=
  let e := off / 64
  match aget? page s.doorbells with
  | none => .next (s.logEvent false 20 0 0xFF 0 [BitVec.ofNat 64 page, BitVec.ofNat 64 off])
  | some d =>
    if off % 64 ≠ 0 ∨ size ≠ 8 ∨ 62 < e then
      .next (s.logEvent false 20 (((s.ctxCore d.ctxid).map (fun c => (s.core c).part)).getD 0) 0xFF d.ctxid [BitVec.ofNat 64 page, BitVec.ofNat 64 off])
    else
      let q := s.acceptFor d.ctxid e value (senderId 1 s.chip d.token.toNat)
      let fails := if q.1 = 0 then d.fails else aput e (min (aval 0 e d.fails + 1) (2 ^ 32 - 1)) d.fails
      .next { q.2 with doorbells := aput page { d with status := aput e q.1 d.status, fails } q.2.doorbells }

/-! ## The peer port (R374 to R377) -/

/-- Whether a window takes a request at an offset. -/
def Window.takes (w : Window) (req off : Nat) : Bool := w.enabled && off < 4096 * w.size && (w.anyReq || req == w.reqId)
/-- One more dropped write of a window, saturating (R375, R377). -/
def Window.drop (w : Window) : Window := { w with faults := min (w.faults + 1) (2 ^ 24 - 1) }
/-- PEER_WINDOW_WRITE (R375). -/
def execPeerWindowWrite (win req off : Nat) (data : List (BitVec 8)) (poison : Bool) (s : State) : Out State :=
  if 63 < win then .fault .noTarget
  else
    let w := s.window win
    if !w.takes req off then .next (s.modWindow win Window.drop)
    else
      let va := w.base + BitVec.ofNat 64 off
      match s.inbound w.ctxid va true with
      | .error k => .next ((s.inboundFault w.ctxid k va).modWindow win Window.drop)
      | .ok pa => .next (((s.recallRun pa data.length).writePhysN pa data poison).modWindow win (fun w =>
          { w with performed := w.performed + data.length, high := max w.high (off + data.length) }))
/-- PEER_WINDOW_READ (R375): status 1 is Unsupported Request, 2 Completer Abort, and 34 poisoned data. -/
def execPeerWindowRead (win req off size : Nat) (s : State) : Out State :=
  if 63 < win then .fault .noTarget
  else
    let w := s.window win
    if !w.takes req off then .next (s.send (.response req 0 1 []))
    else
    let va := w.base + BitVec.ofNat 64 off
    match s.inbound w.ctxid va false with
    | .error k => .next ((s.inboundFault w.ctxid k va).send (.response req 0 2 []))
    | .ok pa => .next ((s.recallRun pa size).send (.response req 0 (if s.physPoison pa size then 34 else 0) (s.readPhysN pa size)))
/-- PEER_DOORBELL_WRITE (R377): a write that is no window's doorbell, and the doorbell of a window that is not bound, is discarded. -/
def execPeerDoorbellWrite (off : Nat) (size : Nat) (value : BitVec 64) (s : State) : Out State :=
  let n := off / 64
  match (if off % 64 = 0 ∧ size = 8 ∧ n < 64 then aget? n s.windows else none).filter Window.enabled with
  | none => .next s
  | some w =>
    let payload := match w.psrc with
      | 0 => value
      | 1 => BitVec.ofNat 64 w.performed
      | _ => BitVec.ofNat 64 w.high
    let q := s.acceptFor w.ctxid w.endpoint payload (senderId 3 s.chip n)
    .next (q.2.modWindow n (fun w =>
      { w with status := q.1, refused := if q.1 = 0 then w.refused else min (w.refused + 1) (2 ^ 32 - 1), performed := 0, high := 0 }))
/-- PEER_UNSUPPORTED_REQUEST (R374). -/
def execPeerUnsupportedRequest (req : Nat) (s : State) : Out State := .next (s.send (.response req 0 1 []))

/-! ## The end of GRACE (R382) -/

/-- GRACE_EXPIRE (R382): a context that is still an orphan is killed, once what its discard awaits has come (R311). -/
def execGraceExpire (part : Nat) (s : State) : Out State :=
  let orphans := (s.partCtxs part).filter (fun x => x.2.orphaned && s.graceOver part x.1)
  if orphans.isEmpty then .fault .notNow
  else match (s.healthy part).head? with
    | none => .fault .noTarget
    | some c =>
      let s1 := orphans.foldl (fun s x => s.killStop x.1 x.2) s
      match orphans.find? (fun x => (s1.killTags x.1 x.2).isEmpty) with
      | some x => .next (s1.killCtx c x.1 x.2)
      | none => .next s1

/-! ## What else the host asks -/

/-- STATE of the host block (R370): link up, and whether a context of the partition is an orphan. -/
def State.hostState (s : State) (part : Nat) : Nat :=
  (if s.hostUp then 1 else 0) + (if (s.partCtxs part).any (fun x => x.2.orphaned) then 2 else 0)
/-- A read of the host block at an offset (R370); what an offset of no field gives is a free value (DESIGN CHOICE, log 5). -/
def State.hostRead (s : State) (part off : Nat) : DWord :=
  let p := s.part part
  match off with
  | 0x000 => p.sqbase
  | 0x008 => p.sqsize
  | 0x00C => p.sqtail
  | 0x010 => p.sqhead
  | 0x018 => p.hsqbase
  | 0x020 => p.hsqsize
  | 0x024 => p.hsqtail
  | 0x028 => p.hsqhead
  | 0x030 => p.trbase
  | 0x038 => p.trsize
  | 0x03C => p.trtail
  | 0x040 => p.grace
  | 0x044 => BitVec.ofNat 64 (s.hostState part)
  | _ => (Config.freeWord s.freeCtr).zeroExtend 64
/-- A read of a doorbell page (R273, R373): the status word to 8 bytes at 64e + 8 of a bound page, and 0 to every other. -/
def State.doorbellRead (s : State) (page off size : Nat) : DWord :=
  let e := off / 64
  match aget? page s.doorbells with
  | none => 0
  | some d => if off % 64 = 8 ∧ size = 8 ∧ e ≤ 62 then BitVec.ofNat 64 (aval 0 e d.status + 2 ^ 32 * aval 0 e d.fails) else 0
/-- A read of BAR2 of the peer port (R377): window n's status word at 64n + 8, and 0 elsewhere. -/
def State.bar2Read (s : State) (off size : Nat) : DWord :=
  let w := s.window (off / 64)
  if off % 64 = 8 ∧ size = 8 ∧ off / 64 < 64 then BitVec.ofNat 64 (w.status % 256 + 2 ^ 8 * w.faults + 2 ^ 32 * w.refused) else 0
/-- The capabilities of the SPDM responder (R385): CERT, CHAL, and MEAS with signatures, in the flags of SPDM 1.3's CAPABILITIES (PRESUMED, log 3). -/
def spdmCapabilities : DWord := 0x16
/-- What the host or its driver asks (R257, R273, R364, R370, R373, R377, R384): a pre-emption request, answered with its status and number,
and its release; the enabling of tracing; and reads of the host block, of the step at which the boot stopped, of a doorbell page and of
BAR2; the SPDM capabilities, and the bytes of a measurement request (R385). -/
def State.host (s : State) (a : HostAct) : Out State :=
  let reply (s : State) (status : Nat) (x : DWord) : State := s.send (.host status x [] false)
  if !s.hostUp && !(a matches .readBar2 _ _) then .fault .notNow
  else match a with
  | .preempt part count hold =>
    if 255 < count ∨ 7 < hold ∨ 7 < part then .fault .noTarget
    else
      let q := s.preempt (count + 256 * hold + 4096 * part) 0
      .next (reply q.2.2 q.1 (BitVec.ofNat 64 q.2.1))
  | .release part id =>
    if 7 < part then .fault .noTarget
    else
      let q := s.preempt (32768 + 4096 * part) id
      .next (reply q.2.2 q.1 0)
  | .trace part ctxid on =>
    .next { s with traceOn := if on then setAdd (traceKey part ctxid) s.traceOn else setDel (traceKey part ctxid) s.traceOn }
  | .readBlock part off =>
    if s.parts.length ≤ part ∨ 4096 ≤ off then .fault .noTarget else .next (reply (s.takeFree 1) 0 (s.hostRead part off))
  | .readConfig => .next (reply s 0 (BitVec.ofNat 64 (s.bootFail.getD 0)))
  | .readDoorbell page off size =>
    if 65536 ≤ page ∨ 4096 ≤ off then .fault .noTarget else .next (reply s 0 (s.doorbellRead page off size))
  | .spdmCaps => if s.managementUp then .next (s.send (.mgmt 5 [spdmCapabilities])) else .fault .notNow
  | .mailbox bytes => if s.managementUp then .next { s with mailbox := bytes } else .fault .notNow
  | .readBar2 off size => .next (s.send (.response 0 0 0 (leBytes (s.bar2Read off size).toNat size)))

end Sys2Proof.Machine
end

