-- ==== Sys2Proof/Machine/Platform.lean ====
section
/-! DEFINITION. Boot, measurement, security, partition reset, power, and lost cores (R316, R383 to R393). -/
namespace Sys2Proof.Machine

/-! ## The boot chain (R383 to R387) -/

/-- Whether two of a list of masks share a bit. -/
def sharing {n : Nat} (l : List (BitVec n)) : Bool :=
  (List.range l.length).any (fun i => (List.range i).any (fun j => l.getD i 0 &&& l.getD j 0 != 0))
/-- Whether a manifest leaves the bounds of its layout (R386): its magic number and version, the partitions and their watchdog periods, the
secure regions. -/
def manifestShape (m : Manifest) : Bool :=
  m.magic != 0x4D464E4B || m.ver != 1 || m.parts.isEmpty || 8 < m.parts.length || 16 < m.secure.length ||
    m.parts.any (fun p => p.wdt == 0 || 60 < p.wdt || 1 < p.world.toNat) || m.secure.any (fun r => r.1 % 0x200000 != 0 || r.2 % 0x200000 != 0)
/-- Whether R387 refuses a manifest; one out of the bounds of R386 is refused with it (DESIGN CHOICE, log 3). -/
def manifestBad (m : Manifest) : Bool :=
  manifestShape m || m.reserved != 0 || m.coreEn.extractLsb' 144 48 != 0 || m.debugFlags.extractLsb' 1 7 != 0 ||
    m.parts.any (fun p => p.reserved != 0 || p.sect.extractLsb' 12 4 != 0 || p.sect == 0 || p.stk == 0 ||
      !((List.range 2).all (fun k =>
        let pa := p.fwres + 0x1FFFFFFF * k
        pa < hbmEnd && p.stk.getLsbD (stackOf pa)))) ||
    sharing (m.parts.map PartRecord.sect) || sharing (m.parts.map PartRecord.stk) || sharing (m.parts.map PartRecord.ports) ||
    m.secure.any (fun r => r.2 != 0 && !m.parts.any (fun p => p.world == 1 &&
      (List.range 9).all (fun k =>
        let pa := if k = 8 then r.1 + r.2 - 1 else max r.1 (min (r.1 + r.2 - 1) (0xC00000000 * k))
        pa < hbmEnd && p.stk.getLsbD (stackOf pa))))
/-- The step of R383 at which the boot stops; none where it goes on to the end. -/
def bootStop (b : BootImages) : Option Nat :=
  if !manifestOk b || !mgmtOk b then some 2
  else if manifestBad b.manifest || !superOk b || !microOk b then some 4
  else none
/-- The registers that were extended before the boot stopped. -/
def stopMeasured (b : BootImages) : List (Nat × BitVec 512) :=
  (measured b (podOk b)).filter (fun e =>
    if e.1 = 0 then manifestOk b
    else if e.1 = 1 then manifestOk b && mgmtOk b
    else if e.1 = 2 then manifestOk b && mgmtOk b && !manifestBad b.manifest && superOk b
    else false)
/-- The device after its boot chain (R383, R384): where it stops, no core is released, the host port has CXL.io only, and nothing that step 4
would place or install stands (DESIGN CHOICE for a stop within step 4, log 3). -/
def State.boot (tick : DWord) (b : BootImages) : State :=
  let s := State.bootState tick b (podOk b)
  match bootStop b with
  | none => s
  | some n =>
    let s1 := { s with
      mem := [], chip := 0, routes := [], podInstalled := false,
      cores := (List.range 144).map (fun c => (c, Core.fresh ((partOfCore b.manifest c).getD 8) false)), groups := [], parts := [],
      hostCxl := false, atomicOpEn := false, portsUp := 0, measure := stopMeasured b, booted := false, bootFail := some n }
    s1.logEvent true 6 0 0xFF 0 [BitVec.ofNat 64 n]
/-- COLD_RESET (R358, R367, R383): the tick reads 0 and the last-events record is empty. -/
def execColdReset (img : BootImages) (s : State) : Out State :=
  let t := State.boot 0 img
  .next { t with freeCtr := s.freeCtr, out := s.out }
/-- A warm reset of the whole device (R367, R383): the tick and the last-events record go on. -/
def State.warmReset (s : State) : State :=
  let t := State.boot s.tick s.flash
  let log := t.eventLog
  let u : State := { t with freeCtr := s.freeCtr, out := s.out, eventLog := s.eventLog, eventSeq := s.eventSeq }
  let v := u.logEvent true 6 0 0xFF 0 []
  log.foldl (fun v e => v.logEvent e.ringE e.type e.part e.core e.ctxid e.info) v
/-- EXTEND (R383): registers 5 to 15. -/
def execExtend (reg : Nat) (digest : BitVec 512) (s : State) : Out State :=
  if !s.managementUp then .fault .notNow
  else if 5 ≤ reg && reg ≤ 15 then .next { s with measure := aput reg (extendM (aval 0 reg s.measure) digest) s.measure }
  else .next s
/-- The 64 bytes of a measurement register. -/
def State.measureBytes (s : State) (n : Nat) : List Byte := leBytes (aval 0 n s.measure).toNat 64
/-- Bytes as 64-bit values. -/
def dwordsOf (l : List Byte) : List DWord := (List.range (l.length / 8)).map (fun k => BitVec.ofNat 64 (leNat ((l.drop (8 * k)).take 8)))
/-- SPDM_CERT (R385). -/
def execSpdmCert (s : State) : Out State :=
  if s.managementUp then .next (s.send (.mgmt 1 Config.certificate)) else .fault .notNow
/-- The signature of a response (R385): over the SHA-384 of the transcript, the request's bytes with its nonce and the response's. What else
SPDM 1.3 counts to a transcript no rule of the spec gives (DESIGN CHOICE, log 3). -/
def spdmSign (request response : List Byte) : List DWord := Config.sign (leBytes (Config.sha384 (request ++ response)).toNat 48)
/-- SPDM_CHAL (R385): the signed answer to a nonce. -/
def execSpdmChal (nonce : List (BitVec 8)) (s : State) : Out State :=
  if s.managementUp then .next (s.send (.mgmt 2 (spdmSign nonce []))) else .fault .notNow
/-- The measurement blocks (R385): block i + 1 holds register i as its raw 64 bytes. -/
def State.measureBlocks (s : State) : List Byte := (List.range 16).flatMap (fun i => leBytes (i + 1) 1 ++ s.measureBytes i)
/-- SPDM_MEAS (R385): the blocks, signed with the request that stands in the mailbox, its nonce among its bytes. -/
def execSpdmMeas (s : State) : Out State :=
  if s.managementUp then
    .next ({ s with mailbox := [] }.send (.mgmt 3 (dwordsOf s.measureBlocks ++ spdmSign s.mailbox s.measureBlocks)))
  else .fault .notNow

/-! ## Partition reset (R389, R390) -/

/-- Steps 1 to 4 of R390: the partition's work, contexts, caches, translations and memory are gone, and it answers nothing. -/
def State.resetStart (s : State) (p : Nat) : State :=
  let mine (x : Nat) : Bool := (s.partCtxs p).any (fun q => q.1.toNat == x)
  let line (e : Nat × LineTag) : Bool := e.2.part == p || s.inStacks p (256 * e.1)
  let coreIn (c : Nat) : Bool := (s.core c).part == p
  let grids := s.grids.filter (fun e => e.2.part == p)
  let s1 := { s with
    groups := s.groups.filter (fun e => !coreIn e.2.core),
    blocks := s.blocks.filter (fun e => e.2.part != p),
    grids := s.grids.filter (fun e => e.2.part != p),
    ballast := s.ballast.filter (fun e => !grids.any (fun g => g.1 == e.1 / 2 ^ 32)),
    requests := s.requests.filter (fun e => !(coreIn e.2.core || (e.2.core == noCore && (mine e.2.ctxid.toNat || e.2.key % 16 == p)))),
    awaits := s.awaits.filter (fun e => e.2.part != p),
    unsent := s.unsent.filter (fun e => !coreIn e.1),
    doorbells := s.doorbells.filter (fun e => !mine e.2.ctxid.toNat),
    windows := s.windows.filter (fun e => !mine e.2.ctxid.toNat),
    regions := s.regions.filter (fun r => r.part != p),
    objects := s.objects.filter (fun o => !mine o.ctxid.toNat),
    traceOn := s.traceOn.filter (fun x => x / 65536 != p),
    hostLost := s.hostLost.filter (fun x => !mine x),
    hostOrphans := s.hostOrphans.filter (fun x => !mine x.1),
    breakpoints := s.breakpoints.filter (fun e => e.1 / 4 / 65536 != p),
    units := s.units.filter (fun u => u.part != p),
    exhausted := setDel p s.exhausted,
    mem := s.mem.filter (fun e => !s.inStacks p e.1),
    memPoison := s.memPoison.filter (fun q => !s.inStacks p (64 * q)),
    cores := s.cores.map (fun (e : Nat × Core) =>
      if e.2.part == p then (e.1, { Core.fresh p e.2.enabled with fenced := e.2.fenced }) else e),
    debugStopped := s.debugStopped.filter (fun x => x != some p),
    debugArmed := s.debugArmed.filter (fun x => x.2 != some p) }
  let held := s.hostHeld.filter (fun q => s.inStacks p (64 * q))
  let s2 := (held.foldl (fun s q => s.backInvalidate (64 * q)) s1).dropLines (fun l => (s.llcTag.find? (fun e => e.1 == l)).any line)
  (s2.modPart p (fun q => { Partition.fresh q.info s.tick with resetting := true })).logEvent true 6 p 0xFF 0 []
/-- Step 5 of R390: the supervisor images stand in their reserve again, and the partition's supervisor groups restart. -/
def State.resetEnd (s : State) (p : Nat) : State :=
  let cells := s.flash.cells.filter (fun e => s.inStacks p e.1)
  let cs := (s.cores.filter (fun e => e.2.part == p && e.2.enabled && !e.2.fenced)).map Prod.fst
  let s1 := { s with mem := cells.foldl (fun l (e : Host.Cell) => aset 0 e.1 e.2 l) s.mem,
                     groups := cs.foldl (fun l c => aput c (Group.fresh c none 0 0 64 1 s.flash.entry) l) s.groups }
  s1.modPart p (fun q => { Partition.fresh q.info s.tick with resetting := false })
/-- WATCHDOG_EXPIRE (R389). -/
def execWatchdogExpire (part : Nat) (s : State) : Out State :=
  if s.parts.length ≤ part || (s.part part).resetting || decide (s.tick < (s.part part).wdDeadline) then .fault .notNow
  else .next (s.resetStart part)
/-- PARTITION_RESET_REQUEST (R390). -/
def execPartitionResetRequest (part : Nat) (s : State) : Out State :=
  if s.parts.length ≤ part then .fault .noTarget else .next (s.resetStart part)

/-! ## Lost cores (R316), power (R391 to R393) -/

/-- CORE_UNCORRECTABLE_ERROR (R316). -/
def execCoreUncorrectableError (core unit : Nat) (s : State) : Out State :=
  if (s.core core).enabled && !(s.core core).fenced then .next (s.fenceCore core unit) else .fault .noTarget
/-- A power or thermal limit has acted: the TYPE 4 record (R367). -/
def State.powerEvent (s : State) (part : Nat) (x : Nat) : State := s.logEvent true 4 part 0xFF 0 [BitVec.ofNat 64 x]
/-- POWER_CAP (R391): a cap outside 600 W to 2,000 W is refused. -/
def execPowerCap (watts : Nat) (s : State) : Out State :=
  if !s.managementUp then .fault .notNow
  else if 600 ≤ watts ∧ watts ≤ 2000 then .next ({ s with powerCap := watts }.powerEvent 0 watts) else .next s
/-- GOVERNOR_TICK (R393): a frequency that changes is the action of a limit. -/
def execGovernorTick (mhz : Nat) (s : State) : Out State :=
  let f := min mhz 2250
  .next (if f = s.clockMHz then s else { s with clockMHz := f }.powerEvent 0 f)
/-- RAIL_CURRENT_THROTTLE (R393): the section's quarters withhold issue, or issue again. -/
def execRailCurrentThrottle (sect : Nat) (withhold : Bool) (s : State) : Out State :=
  if 12 ≤ sect then .fault .noTarget
  else if withhold then
    .next ({ s with throttled := setAdd sect s.throttled }.powerEvent ((partOfCore s.flash.manifest (12 * sect)).getD 0) sect)
  else .next { s with throttled := setDel sect s.throttled }
/-- THERMAL_LIMIT (R391): the clock is lowered from 105 °C, and from 115 °C the device resets. -/
def execThermalLimit (celsius : Nat) (mhz : Nat) (s : State) : Out State :=
  if celsius < 105 then .fault .notNow
  else
    let s1 := s.powerEvent 0 celsius
    if 115 ≤ celsius then .next s1.warmReset else .next { s1 with clockMHz := min mhz s.clockMHz }

/-! ## Contexts (R306, R323, R388) -/

/-- The 128 bytes of a new descriptor (R306). -/
def contextBytes (r : ContextReq) : List Byte :=
  leBytes r.ptroot.toNat 8 ++ leBytes r.asid.toNat 2 ++ leBytes (r.ctxid / 1024) 1 ++ leBytes r.part 1 ++
    leBytes (if r.secure then 3 else 1) 1 ++ leBytes r.prioLim 1 ++ leBytes 0 2 ++ leBytes r.ballast.toNat 8 ++ leBytes r.bsize.toNat 8 ++
    leBytes r.eptab.toNat 8 ++ leBytes 0 16 ++ leBytes r.gridLim.toNat 4 ++ leBytes 0 4 ++ leBytes r.token.toNat 8 ++ leBytes 0 56
/-- The live contexts of the device (R12, R15, R390): those that a partition which is not in reset holds. -/
def State.liveCtxs (s : State) : List (BitVec 16 × Desc) := (s.parts.filter (fun p => !p.2.resetting)).flatMap (fun p => s.partCtxs p.1)
/-- Whether the firmware refuses a request (R12, R15, R306, R323, R388): fields out of range, a descriptor in use, a CTXID or an ASID that is
not the context's own alone on the device, 1,024 contexts that live already, or a secure context in a partition of the non-secure world. -/
def State.contextBad (s : State) (r : ContextReq) : Bool :=
  s.parts.length ≤ r.part || (s.core r.core).part != r.part || 65536 ≤ r.ctxid || r.ctxid % 1024 == 0 || 7 < r.prioLim || r.asid == 0 ||
    r.ballast.toNat % 4096 != 0 || r.eptab.toNat % 4096 != 0 || (r.secure && (s.part r.part).info.world != 1) ||
    ((s.rawDesc r.core (BitVec.ofNat 16 r.ctxid)).map Desc.live).getD true ||
    s.liveCtxs.any (fun x => x.2.asid == r.asid.toNat || x.1.toNat == r.ctxid) || 1024 ≤ s.liveCtxs.length
/-- CREATE_CONTEXT (R306). -/
def execCreateContext (req : ContextReq) (s : State) : Out State :=
  if s.contextBad req then .next (s.send (.mgmt 4 [1]))
  else match s.ctx0Write (s.core req.core).part (s.descAddr req.core (BitVec.ofNat 16 req.ctxid)) (contextBytes req) with
    | .ok s1 => .next (s1.send (.mgmt 4 [0]))
    | .error _ => .next (s.send (.mgmt 4 [1]))

end Sys2Proof.Machine
end

