-- ==== Sys2Proof/Machine/Retired.lean ====
section
/-! DEFINITION. Words that are not instructions (R56 to R59), the retired words and their effects (R55). -/
namespace Sys2Proof.Machine

/-- The reasons that the state gives, whatever else the word's fields break (R59): the format slot of a matrix word (R215, R231), and
NEST at SRET (R305). -/
def slotReasons (w : DWord) (s : State) (g : Group) : List Nat :=
  let op := opField w
  let fs := s.slotOf g (w.extractLsb' 6 3).toNat
  let n := (if w.getLsbD 3 then 64 else 32) * fmtWidth (fsAF fs) / 32
  if w.getLsbD 63 then []
  else if g.isSup then (if op == 0x164 && !(s.core g.core).nest then [5] else [])
  else if op == 0x120 || op == 0x121 then (if slotMma fs then [] else [5])
  else if op == 0x122 then (if slotMmaqs fs then [] else [5])
  else if op == 0x124 then (if fs = 0 then [5] else if (w.extractLsb' 42 8).toNat % min 8 n ≠ 0 then [6] else [])
  else []
/-- A word that is not an instruction (R56 to R59): PRIVILEGE comes first, then the lowest reason. -/
def execIllegalWord (w : BitVec 64) (reason : Nat) (h0 h1 : Bool) (s : State) : Out State :=
  match s.group? s.cur.key with
  | none => .fault .noGroup
  | some g =>
    let op := opField w
    let full := !w.getLsbD 63
    let cur := g.mask s.cur.slot1
    if s.cur.slot1 && stopsSlot1 w then s.stopSecondary s.cur.key g
    else if !s.cur.slot1 && !g.inEntry && g.divided && slot0Waits w then .next (s.waitAt .undivided)
    else if full && !g.isSup && privileged op then finish s (.error (.trap (opTrap 3 w cur)))
    else
      let n := (slotReasons w s g).foldl min (if full && g.isSup && supForbidden op then min reason 9 else reason)
      finish s (.error (.trap (illegal w n h0 h1 cur)))

/-! ## Retired words (R55) -/

/-- A retired word traps RETIRED with ACTIVE in TRAPLANES, even when ACTIVE is empty (R55, R57). -/
def retiredWord (i : Instr) (s : State) : Out State :=
  match s.group? s.cur.key with
  | none => .fault .noGroup
  | some g =>
    let w := wordOf i
    let (pg, pn) := guardOf i
    if s.cur.slot1 && stopsSlot1 w then s.stopSecondary s.cur.key g
    else finish s (.error (.trap (opTrap 2 w (g.active s.cur.slot1 pg pn))))
/-- FDIVA. -/
def execFdiva (r : RWord) (s : State) : Out State := retiredWord (.fdiva r) s
/-- IMAD24. -/
def execImad24 (r : RWord) (s : State) : Out State := retiredWord (.imad24 r) s
/-- HSEL2.LL. -/
def execHsel2Ll (r : RWord) (s : State) : Out State := retiredWord (.hsel2Ll r) s
/-- HSEL2.LH. -/
def execHsel2Lh (r : RWord) (s : State) : Out State := retiredWord (.hsel2Lh r) s
/-- HSEL2.HL. -/
def execHsel2Hl (r : RWord) (s : State) : Out State := retiredWord (.hsel2Hl r) s
/-- HSEL2.HH. -/
def execHsel2Hh (r : RWord) (s : State) : Out State := retiredWord (.hsel2Hh r) s
/-- LDNC. -/
def execLdnc (r : MWord) (s : State) : Out State := retiredWord (.ldnc r) s
/-- CVTH4. -/
def execCvth4 (r : RWord) (s : State) : Out State := retiredWord (.cvth4 r) s
/-- VOTEX. -/
def execVotex (r : RWord) (s : State) : Out State := retiredWord (.votex r) s

/-! ## The effects of R55 -/

/-- FDIVA of two f32 values: the result and the flags of both roundings. -/
def fdivaVal (a b : Nat) : Nat × Flags :=
  let q := exDiv (fpBits f32) exOne (f32.dec b)
  let x := roundTo f32 q.1 0 false 0
  let p := exMul (f32.dec a) (f32.dec x.1)
  let y := roundTo f32 p.1 0 false 0
  (y.1, q.2 ||| x.2 ||| p.2 ||| y.2)
/-- IMAD24 of three words. -/
def imad24Val (a b c : Word) : Word :=
  (a.extractLsb' 0 24).signExtend 32 * (b.extractLsb' 0 24).signExtend 32 + c
/-- HSEL2: `ha` and `hb` choose the high halves. -/
def hsel2Val (ha hb : Bool) (a b : Word) : Word :=
  (if hb then b.extractLsb' 16 16 else b.extractLsb' 0 16) ++ (if ha then a.extractLsb' 16 16 else a.extractLsb' 0 16)
/-- The f16 value of nibble k as a signed 4-bit number. -/
def cvth4Val (a : Word) (k : Nat) : Nat := (roundTo f16 (Ex.ofInt ((a.extractLsb' (4 * k) 4).toInt)) 0 false 0).1
/-- A pair of f16 values of CVTH4, from nibble k. -/
def cvth4Pair (a : Word) (k : Nat) : Word := BitVec.ofNat 32 (cvth4Val a k + 2 ^ 16 * cvth4Val a (k + 1))
/-- VOTEX: the lanes whose predicate is true. -/
def votexVal (g : Group) (p : Nat) (m : Mask) : Word := g.getP p &&& m
/-- The R55 effect of an R-form retired word on the lanes of m, with the poison of R94; `slot1` is the slot that trapped. -/
def Group.retiredEffect (g : Group) (i : Instr) (m : Mask) (slot1 : Bool) : Group :=
  let v (x : BitVec 8) (l : Nat) : Word := g.getV x.toNat l
  let p (l : List (BitVec 8)) : Mask := l.foldl (fun q x => q ||| g.poisonV x.toNat) 0
  let two (r : RWord) (f : Word → Word → Word) : Group := g.writeV r.d.toNat m (p [r.a, r.b]) (fun l => f (v r.a l) (v r.b l))
  match i with
  | .fdiva r =>
    (two r (fun a b => BitVec.ofNat 32 (fdivaVal a.toNat b.toNat).1)).orFlags slot1
      (orFlagsOf m (fun l => (fdivaVal (v r.a l).toNat (v r.b l).toNat).2))
  | .imad24 r => g.writeV r.d.toNat m (p [r.a, r.b, r.c]) (fun l => imad24Val (v r.a l) (v r.b l) (v r.c l))
  | .hsel2Ll r => two r (hsel2Val false false)
  | .hsel2Lh r => two r (hsel2Val false true)
  | .hsel2Hl r => two r (hsel2Val true false)
  | .hsel2Hh r => two r (hsel2Val true true)
  | .cvth4 r =>
    (g.writeV r.d.toNat m (p [r.a]) (fun l => cvth4Pair (v r.a l) 0)).writeV (r.d.toNat + 1) m (p [r.a])
      (fun l => cvth4Pair (v r.a l) 2)
  | .votex r => g.writeV r.d.toNat m 0 (fun _ => votexVal g r.a.toNat m)
  | _ => g

end Sys2Proof.Machine
end

