-- ==== Sys2Proof/Machine/Dispatch.lean ====
section
/-! DEFINITION. The dispatch: one arm for each constructor of `Instr`. -/
namespace Sys2Proof.Machine

/-- The effect of an instruction, or of an event, on the state: for a word, that of the group and slot of `cur` issuing it. -/
def exec (i : Instr) (s : State) : Host.Outcome State Fault Refusal :=
  match i with
  | .nop r => Sys2Proof.Machine.execNop r s
  | .exit r => Sys2Proof.Machine.execExit r s
  | .bra r => Sys2Proof.Machine.execBra r s
  | .brx r => Sys2Proof.Machine.execBrx r s
  | .call r => Sys2Proof.Machine.execCall r s
  | .callx r => Sys2Proof.Machine.execCallx r s
  | .ret r => Sys2Proof.Machine.execRet r s
  | .ifThen r => Sys2Proof.Machine.execIfThen r s
  | .elseW r => Sys2Proof.Machine.execElseW r s
  | .loopW r => Sys2Proof.Machine.execLoopW r s
  | .endloop r => Sys2Proof.Machine.execEndloop r s
  | .breakW r => Sys2Proof.Machine.execBreakW r s
  | .cont r => Sys2Proof.Machine.execCont r s
  | .sleep r => Sys2Proof.Machine.execSleep r s
  | .illegalWord w reason h0 h1 => Sys2Proof.Machine.execIllegalWord w reason h0 h1 s
  | .pairWord r => Sys2Proof.Machine.execPairWord r s
  | .iadd r => Sys2Proof.Machine.execIadd r s
  | .iaddI r => Sys2Proof.Machine.execIaddI r s
  | .iadd3 r => Sys2Proof.Machine.execIadd3 r s
  | .isub r => Sys2Proof.Machine.execIsub r s
  | .imul r => Sys2Proof.Machine.execImul r s
  | .imulI r => Sys2Proof.Machine.execImulI r s
  | .imulh r => Sys2Proof.Machine.execImulh r s
  | .imad r => Sys2Proof.Machine.execImad r s
  | .imadw r => Sys2Proof.Machine.execImadw r s
  | .idiv r => Sys2Proof.Machine.execIdiv r s
  | .irem r => Sys2Proof.Machine.execIrem r s
  | .imin r => Sys2Proof.Machine.execImin r s
  | .imax r => Sys2Proof.Machine.execImax r s
  | .isad r => Sys2Proof.Machine.execIsad r s
  | .idot4 r => Sys2Proof.Machine.execIdot4 r s
  | .idot8 r => Sys2Proof.Machine.execIdot8 r s
  | .icmp r => Sys2Proof.Machine.execIcmp r s
  | .sel r => Sys2Proof.Machine.execSel r s
  | .andR r => Sys2Proof.Machine.execAndR r s
  | .andI r => Sys2Proof.Machine.execAndI r s
  | .orR r => Sys2Proof.Machine.execOrR r s
  | .orI r => Sys2Proof.Machine.execOrI r s
  | .xorR r => Sys2Proof.Machine.execXorR r s
  | .xorI r => Sys2Proof.Machine.execXorI r s
  | .lop3 r => Sys2Proof.Machine.execLop3 r s
  | .shl r => Sys2Proof.Machine.execShl r s
  | .shr r => Sys2Proof.Machine.execShr r s
  | .sar r => Sys2Proof.Machine.execSar r s
  | .shf r => Sys2Proof.Machine.execShf r s
  | .bfe r => Sys2Proof.Machine.execBfe r s
  | .bfi r => Sys2Proof.Machine.execBfi r s
  | .brev r => Sys2Proof.Machine.execBrev r s
  | .clz r => Sys2Proof.Machine.execClz r s
  | .popc r => Sys2Proof.Machine.execPopc r s
  | .ffs r => Sys2Proof.Machine.execFfs r s
  | .prmt r => Sys2Proof.Machine.execPrmt r s
  | .mov r => Sys2Proof.Machine.execMov r s
  | .movi r => Sys2Proof.Machine.execMovi r s
  | .movis r => Sys2Proof.Machine.execMovis r s
  | .lea r => Sys2Proof.Machine.execLea r s
  | .add64 r => Sys2Proof.Machine.execAdd64 r s
  | .add64I r => Sys2Proof.Machine.execAdd64I r s
  | .sub64 r => Sys2Proof.Machine.execSub64 r s
  | .mul64 r => Sys2Proof.Machine.execMul64 r s
  | .cmp64 r => Sys2Proof.Machine.execCmp64 r s
  | .movs r => Sys2Proof.Machine.execMovs r s
  | .movrx r => Sys2Proof.Machine.execMovrx r s
  | .movwx r => Sys2Proof.Machine.execMovwx r s
  | .shfl r => Sys2Proof.Machine.execShfl r s
  | .vote r => Sys2Proof.Machine.execVote r s
  | .redux r => Sys2Proof.Machine.execRedux r s
  | .matchL r => Sys2Proof.Machine.execMatchL r s
  | .pset r => Sys2Proof.Machine.execPset r s
  | .p2v r => Sys2Proof.Machine.execP2v r s
  | .v2p r => Sys2Proof.Machine.execV2p r s
  | .fadd r => Sys2Proof.Machine.execFadd r s
  | .faddI r => Sys2Proof.Machine.execFaddI r s
  | .fmul r => Sys2Proof.Machine.execFmul r s
  | .fmulI r => Sys2Proof.Machine.execFmulI r s
  | .ffma r => Sys2Proof.Machine.execFfma r s
  | .fmin r => Sys2Proof.Machine.execFmin r s
  | .fmax r => Sys2Proof.Machine.execFmax r s
  | .fcmp r => Sys2Proof.Machine.execFcmp r s
  | .frcp r => Sys2Proof.Machine.execFrcp r s
  | .frsq r => Sys2Proof.Machine.execFrsq r s
  | .fsqrt r => Sys2Proof.Machine.execFsqrt r s
  | .fdiv r => Sys2Proof.Machine.execFdiv r s
  | .fex2 r => Sys2Proof.Machine.execFex2 r s
  | .flg2 r => Sys2Proof.Machine.execFlg2 r s
  | .fsin r => Sys2Proof.Machine.execFsin r s
  | .fcos r => Sys2Proof.Machine.execFcos r s
  | .ftanh r => Sys2Proof.Machine.execFtanh r s
  | .fclass r => Sys2Proof.Machine.execFclass r s
  | .frnd r => Sys2Proof.Machine.execFrnd r s
  | .dadd r => Sys2Proof.Machine.execDadd r s
  | .dmul r => Sys2Proof.Machine.execDmul r s
  | .dfma r => Sys2Proof.Machine.execDfma r s
  | .dmin r => Sys2Proof.Machine.execDmin r s
  | .dmax r => Sys2Proof.Machine.execDmax r s
  | .dcmp r => Sys2Proof.Machine.execDcmp r s
  | .ddiv r => Sys2Proof.Machine.execDdiv r s
  | .dsqrt r => Sys2Proof.Machine.execDsqrt r s
  | .padd2F16 r => Sys2Proof.Machine.execPadd2F16 r s
  | .pmul2F16 r => Sys2Proof.Machine.execPmul2F16 r s
  | .pfma2F16 r => Sys2Proof.Machine.execPfma2F16 r s
  | .pmin2F16 r => Sys2Proof.Machine.execPmin2F16 r s
  | .pmax2F16 r => Sys2Proof.Machine.execPmax2F16 r s
  | .pcmp2F16 r => Sys2Proof.Machine.execPcmp2F16 r s
  | .padd2Bf16 r => Sys2Proof.Machine.execPadd2Bf16 r s
  | .pmul2Bf16 r => Sys2Proof.Machine.execPmul2Bf16 r s
  | .pfma2Bf16 r => Sys2Proof.Machine.execPfma2Bf16 r s
  | .pmin2Bf16 r => Sys2Proof.Machine.execPmin2Bf16 r s
  | .pmax2Bf16 r => Sys2Proof.Machine.execPmax2Bf16 r s
  | .pcmp2Bf16 r => Sys2Proof.Machine.execPcmp2Bf16 r s
  | .cvt r => Sys2Proof.Machine.execCvt r s
  | .cvtp r => Sys2Proof.Machine.execCvtp r s
  | .fsetm r => Sys2Proof.Machine.execFsetm r s
  | .clrf r => Sys2Proof.Machine.execClrf r s
  | .ld r => Sys2Proof.Machine.execLd r s
  | .st r => Sys2Proof.Machine.execSt r s
  | .ldro r => Sys2Proof.Machine.execLdro r s
  | .roinv r => Sys2Proof.Machine.execRoinv r s
  | .lds r => Sys2Proof.Machine.execLds r s
  | .sts r => Sys2Proof.Machine.execSts r s
  | .stmap r => Sys2Proof.Machine.execStmap r s
  | .stunmap r => Sys2Proof.Machine.execStunmap r s
  | .ldm r => Sys2Proof.Machine.execLdm r s
  | .stm r => Sys2Proof.Machine.execStm r s
  | .pref r => Sys2Proof.Machine.execPref r s
  | .cctlWb r => Sys2Proof.Machine.execCctlWb r s
  | .cctlInv r => Sys2Proof.Machine.execCctlInv r s
  | .cctlWbinv r => Sys2Proof.Machine.execCctlWbinv r s
  | .cctlSyswb r => Sys2Proof.Machine.execCctlSyswb r s
  | .cctlSysinv r => Sys2Proof.Machine.execCctlSysinv r s
  | .fence r => Sys2Proof.Machine.execFence r s
  | .probe r => Sys2Proof.Machine.execProbe r s
  | .atomAdd r => Sys2Proof.Machine.execAtomAdd r s
  | .atomMin r => Sys2Proof.Machine.execAtomMin r s
  | .atomMax r => Sys2Proof.Machine.execAtomMax r s
  | .atomAnd r => Sys2Proof.Machine.execAtomAnd r s
  | .atomOr r => Sys2Proof.Machine.execAtomOr r s
  | .atomXor r => Sys2Proof.Machine.execAtomXor r s
  | .atomExch r => Sys2Proof.Machine.execAtomExch r s
  | .cas r => Sys2Proof.Machine.execCas r s
  | .redAdd r => Sys2Proof.Machine.execRedAdd r s
  | .redMin r => Sys2Proof.Machine.execRedMin r s
  | .redMax r => Sys2Proof.Machine.execRedMax r s
  | .redAnd r => Sys2Proof.Machine.execRedAnd r s
  | .redOr r => Sys2Proof.Machine.execRedOr r s
  | .redXor r => Sys2Proof.Machine.execRedXor r s
  | .atomsAdd r => Sys2Proof.Machine.execAtomsAdd r s
  | .atomsMin r => Sys2Proof.Machine.execAtomsMin r s
  | .atomsMax r => Sys2Proof.Machine.execAtomsMax r s
  | .atomsAnd r => Sys2Proof.Machine.execAtomsAnd r s
  | .atomsOr r => Sys2Proof.Machine.execAtomsOr r s
  | .atomsXor r => Sys2Proof.Machine.execAtomsXor r s
  | .atomsExch r => Sys2Proof.Machine.execAtomsExch r s
  | .cass r => Sys2Proof.Machine.execCass r s
  | .bar r => Sys2Proof.Machine.execBar r s
  | .tbinit r => Sys2Proof.Machine.execTbinit r s
  | .tbarr r => Sys2Proof.Machine.execTbarr r s
  | .tbexp r => Sys2Proof.Machine.execTbexp r s
  | .tbwait r => Sys2Proof.Machine.execTbwait r s
  | .tbtest r => Sys2Proof.Machine.execTbtest r s
  | .tbinv r => Sys2Proof.Machine.execTbinv r s
  | .cpy r => Sys2Proof.Machine.execCpy r s
  | .cpyt r => Sys2Proof.Machine.execCpyt r s
  | .cpyf r => Sys2Proof.Machine.execCpyf r s
  | .gath r => Sys2Proof.Machine.execGath r s
  | .scat r => Sys2Proof.Machine.execScat r s
  | .waitc r => Sys2Proof.Machine.execWaitc r s
  | .cpyq r => Sys2Proof.Machine.execCpyq r s
  | .cpyx r => Sys2Proof.Machine.execCpyx r s
  | .mma r => Sys2Proof.Machine.execMma r s
  | .mmaq r => Sys2Proof.Machine.execMmaq r s
  | .mmaqs r => Sys2Proof.Machine.execMmaqs r s
  | .mzero r => Sys2Proof.Machine.execMzero r s
  | .mcvt r => Sys2Proof.Machine.execMcvt r s
  | .fslot r => Sys2Proof.Machine.execFslot r s
  | .launch r => Sys2Proof.Machine.execLaunch r s
  | .cwait r => Sys2Proof.Machine.execCwait r s
  | .regacq r => Sys2Proof.Machine.execRegacq r s
  | .regrel r => Sys2Proof.Machine.execRegrel r s
  | .treg r => Sys2Proof.Machine.execTreg r s
  | .tfree r => Sys2Proof.Machine.execTfree r s
  | .tsend r => Sys2Proof.Machine.execTsend r s
  | .twait r => Sys2Proof.Machine.execTwait r s
  | .tpoll r => Sys2Proof.Machine.execTpoll r s
  | .tmask r => Sys2Proof.Machine.execTmask r s
  | .tpermAdd r => Sys2Proof.Machine.execTpermAdd r s
  | .tpermRemove r => Sys2Proof.Machine.execTpermRemove r s
  | .tpermClear r => Sys2Proof.Machine.execTpermClear r s
  | .tret r => Sys2Proof.Machine.execTret r s
  | .syscall r => Sys2Proof.Machine.execSyscall r s
  | .syscallb r => Sys2Proof.Machine.execSyscallb r s
  | .trapW r => Sys2Proof.Machine.execTrapW r s
  | .bkpt r => Sys2Proof.Machine.execBkpt r s
  | .sret r => Sys2Proof.Machine.execSret r s
  | .mqpop r => Sys2Proof.Machine.execMqpop r s
  | .mqrplRetry r => Sys2Proof.Machine.execMqrplRetry r s
  | .mqrplNext r => Sys2Proof.Machine.execMqrplNext r s
  | .mqrplPark r => Sys2Proof.Machine.execMqrplPark r s
  | .mqrplResume r => Sys2Proof.Machine.execMqrplResume r s
  | .mqrplFail r => Sys2Proof.Machine.execMqrplFail r s
  | .mqrplAck r => Sys2Proof.Machine.execMqrplAck r s
  | .vsrd r => Sys2Proof.Machine.execVsrd r s
  | .vswr r => Sys2Proof.Machine.execVswr r s
  | .csrrd r => Sys2Proof.Machine.execCsrrd r s
  | .csrwr r => Sys2Proof.Machine.execCsrwr r s
  | .wdpet r => Sys2Proof.Machine.execWdpet r s
  | .swapoutReturn r => Sys2Proof.Machine.execSwapoutReturn r s
  | .swapoutStop r => Sys2Proof.Machine.execSwapoutStop r s
  | .swapoutDiscard r => Sys2Proof.Machine.execSwapoutDiscard r s
  | .swapin r => Sys2Proof.Machine.execSwapin r s
  | .hqput r => Sys2Proof.Machine.execHqput r s
  | .sigpostUser r => Sys2Proof.Machine.execSigpostUser r s
  | .sigpostStop r => Sys2Proof.Machine.execSigpostStop r s
  | .sigpostCont r => Sys2Proof.Machine.execSigpostCont r s
  | .sigpostKill r => Sys2Proof.Machine.execSigpostKill r s
  | .halt r => Sys2Proof.Machine.execHalt r s
  | .preempt r => Sys2Proof.Machine.execPreempt r s
  | .ptinvRange r => Sys2Proof.Machine.execPtinvRange r s
  | .ptinvAsid r => Sys2Proof.Machine.execPtinvAsid r s
  | .ptinvPartition r => Sys2Proof.Machine.execPtinvPartition r s
  | .tcinv r => Sys2Proof.Machine.execTcinv r s
  | .tcpin r => Sys2Proof.Machine.execTcpin r s
  | .tcpinUnpin r => Sys2Proof.Machine.execTcpinUnpin r s
  | .fdiva r => Sys2Proof.Machine.execFdiva r s
  | .imad24 r => Sys2Proof.Machine.execImad24 r s
  | .hsel2Ll r => Sys2Proof.Machine.execHsel2Ll r s
  | .hsel2Lh r => Sys2Proof.Machine.execHsel2Lh r s
  | .hsel2Hl r => Sys2Proof.Machine.execHsel2Hl r s
  | .hsel2Hh r => Sys2Proof.Machine.execHsel2Hh r s
  | .ldnc r => Sys2Proof.Machine.execLdnc r s
  | .cvth4 r => Sys2Proof.Machine.execCvth4 r s
  | .votex r => Sys2Proof.Machine.execVotex r s
  | .hpri r => Sys2Proof.Machine.execHpri r s
  | .hlive r => Sys2Proof.Machine.execHlive r s
  | .hqlen r => Sys2Proof.Machine.execHqlen r s
  | .hloc r => Sys2Proof.Machine.execHloc r s
  | .hintUnimplemented code r => Sys2Proof.Machine.execHintUnimplemented code r s
  | .trace r => Sys2Proof.Machine.execTrace r s
  | .mark r => Sys2Proof.Machine.execMark r s
  | .wpset r => Sys2Proof.Machine.execWpset r s
  | .wpsetBp r => Sys2Proof.Machine.execWpsetBp r s
  | .wpclr r => Sys2Proof.Machine.execWpclr r s
  | .wpclrBp r => Sys2Proof.Machine.execWpclrBp r s
  | .perfrd r => Sys2Proof.Machine.execPerfrd r s
  | .preemptRelease r => Sys2Proof.Machine.execPreemptRelease r s
  | .endif => Sys2Proof.Machine.execEndif s
  | .yield => Sys2Proof.Machine.execYield s
  | .gangbar => Sys2Proof.Machine.execGangbar s
  | .resolveAfterTret key => Sys2Proof.Machine.execResolveAfterTret key s
  | .stopSecondary key => Sys2Proof.Machine.execStopSecondary key s
  | .sleepWake key slot => Sys2Proof.Machine.execSleepWake key slot s
  | .engineSlotGrant core gather => Sys2Proof.Machine.execEngineSlotGrant core gather s
  | .engineBytesDone core op n => Sys2Proof.Machine.execEngineBytesDone core op n s
  | .engineOpComplete core op => Sys2Proof.Machine.execEngineOpComplete core op s
  | .engineAccessFault core op => Sys2Proof.Machine.execEngineAccessFault core op s
  | .engineOpFail core op link => Sys2Proof.Machine.execEngineOpFail core op link s
  | .quadForm blk quad => Sys2Proof.Machine.execQuadForm blk quad s
  | .regacqGrant core => Sys2Proof.Machine.execRegacqGrant core s
  | .registerStall core => Sys2Proof.Machine.execRegisterStall core s
  | .coreWorkRequest core => Sys2Proof.Machine.execCoreWorkRequest core s
  | .gangEnlistTimeout part seq => Sys2Proof.Machine.execGangEnlistTimeout part seq s
  | .displaceWaitingParent part => Sys2Proof.Machine.execDisplaceWaitingParent part s
  | .displaceHigherBlock part seq => Sys2Proof.Machine.execDisplaceHigherBlock part seq s
  | .blockRetire blk => Sys2Proof.Machine.execBlockRetire blk s
  | .gridRetire part seq => Sys2Proof.Machine.execGridRetire part seq s
  | .tetherEntry key => Sys2Proof.Machine.execTetherEntry key s
  | .hostDoorbellStore page off size value => Sys2Proof.Machine.execHostDoorbellStore page off size value s
  | .mooringEntryTake core => Sys2Proof.Machine.execMooringEntryTake core s
  | .hostReply core tag reply body => Sys2Proof.Machine.execHostReply core tag reply body s
  | .callGetid core handle => Sys2Proof.Machine.execCallGetid core handle s
  | .callDmap core handle base => Sys2Proof.Machine.execCallDmap core handle base s
  | .callDunmap core handle => Sys2Proof.Machine.execCallDunmap core handle s
  | .callSigmask core handle => Sys2Proof.Machine.execCallSigmask core handle s
  | .callForwarded core handle => Sys2Proof.Machine.execCallForwarded core handle s
  | .permissionCacheFill core ctx va => Sys2Proof.Machine.execPermissionCacheFill core ctx va s
  | .loadPerformed tag data poison fault => Sys2Proof.Machine.execLoadPerformed tag data poison fault s
  | .l1Eviction core asid va => Sys2Proof.Machine.execL1Eviction core asid va s
  | .postedWriteFail tag reason => Sys2Proof.Machine.execPostedWriteFail tag reason s
  | .linkResponseTimeout tag => Sys2Proof.Machine.execLinkResponseTimeout tag s
  | .hostSnoop pa own => Sys2Proof.Machine.execHostSnoop pa own s
  | .hostHdmAccess pa size write data poison => Sys2Proof.Machine.execHostHdmAccess pa size write data poison s
  | .ualinkInboundAccess req => Sys2Proof.Machine.execUalinkInboundAccess req s
  | .ualinkTetherRequest srcChip tag sender ctxid ep payload => Sys2Proof.Machine.execUalinkTetherRequest srcChip tag sender ctxid ep payload s
  | .ualinkPortFail port => Sys2Proof.Machine.execUalinkPortFail port s
  | .keptResponseExpire srcChip ctx => Sys2Proof.Machine.execKeptResponseExpire srcChip ctx s
  | .translationMiss key slot full => Sys2Proof.Machine.execTranslationMiss key slot full s
  | .traceDrain core => Sys2Proof.Machine.execTraceDrain core s
  | .coreUncorrectableError core unit => Sys2Proof.Machine.execCoreUncorrectableError core unit s
  | .sqtailWrite part tail entries => Sys2Proof.Machine.execSqtailWrite part tail entries s
  | .submitLaunch part ctxid va => Sys2Proof.Machine.execSubmitLaunch part ctxid va s
  | .submitLoad part ctxid addr size places => Sys2Proof.Machine.execSubmitLoad part ctxid addr size places s
  | .submitInval part ctl start count => Sys2Proof.Machine.execSubmitInval part ctl start count s
  | .submitReclaim part ctxid token => Sys2Proof.Machine.execSubmitReclaim part ctxid token s
  | .submitBinddb part ctxid a0 a1 => Sys2Proof.Machine.execSubmitBinddb part ctxid a0 a1 s
  | .submitWindow part ctxid a0 a1 a2 => Sys2Proof.Machine.execSubmitWindow part ctxid a0 a1 a2 s
  | .hostBlockWrite part off value => Sys2Proof.Machine.execHostBlockWrite part off value s
  | .peerWindowWrite win req off data poison => Sys2Proof.Machine.execPeerWindowWrite win req off data poison s
  | .peerWindowRead win req off size => Sys2Proof.Machine.execPeerWindowRead win req off size s
  | .peerDoorbellWrite off size value => Sys2Proof.Machine.execPeerDoorbellWrite off size value s
  | .peerUnsupportedRequest req => Sys2Proof.Machine.execPeerUnsupportedRequest req s
  | .hostPortDown => Sys2Proof.Machine.execHostPortDown s
  | .graceExpire part => Sys2Proof.Machine.execGraceExpire part s
  | .coldReset img => Sys2Proof.Machine.execColdReset img s
  | .watchdogExpire part => Sys2Proof.Machine.execWatchdogExpire part s
  | .partitionResetRequest part => Sys2Proof.Machine.execPartitionResetRequest part s
  | .debugStopArm tick part => Sys2Proof.Machine.execDebugStopArm tick part s
  | .debugStop part => Sys2Proof.Machine.execDebugStop part s
  | .spdmCert => Sys2Proof.Machine.execSpdmCert s
  | .spdmChal nonce => Sys2Proof.Machine.execSpdmChal nonce s
  | .spdmMeas => Sys2Proof.Machine.execSpdmMeas s
  | .extend reg digest => Sys2Proof.Machine.execExtend reg digest s
  | .lastEventsRead => Sys2Proof.Machine.execLastEventsRead s
  | .powerCap watts => Sys2Proof.Machine.execPowerCap watts s
  | .governorTick mhz => Sys2Proof.Machine.execGovernorTick mhz s
  | .railCurrentThrottle sect withhold => Sys2Proof.Machine.execRailCurrentThrottle sect withhold s
  | .thermalLimit celsius mhz => Sys2Proof.Machine.execThermalLimit celsius mhz s
  | .postedWriteAck tag => Sys2Proof.Machine.execPostedWriteAck tag s
  | .tetherApertureResponse tag status => Sys2Proof.Machine.execTetherApertureResponse tag status s
  | .hostPortUp cxl atomicOp => Sys2Proof.Machine.execHostPortUp cxl atomicOp s
  | .ualinkPortRetrain port => Sys2Proof.Machine.execUalinkPortRetrain port s
  | .memoryPoisonFound pa => Sys2Proof.Machine.execMemoryPoisonFound pa s
  | .permissionCacheEviction core idx => Sys2Proof.Machine.execPermissionCacheEviction core idx s
  | .createContext req => Sys2Proof.Machine.execCreateContext req s

end Sys2Proof.Machine
end

