-- ==== Sys2Proof/Machine/Firmware.lean ====
section
/-! DEFINITION. What the core supervisor firmware of a core does by itself: the messages that it sends to the host (R310), the service of
faults on a page (R339), the emulation of retired words (R355, R356), swap requests (R248, R292, R308, R309), and replies. -/
namespace Sys2Proof.Machine

/-! ## Messages -/

/-- A message that awaits no reply (R310); one that the queue refuses is kept and sent again. -/
def State.tell (s : State) (c type : Nat) (body : List Byte) : State :=
  let m := hsqMessage s.freshTag type body
  let q := { s with nextAwait := s.nextAwait + 1 }.hsqPut (s.core c).part m
  if q.1 = 0 then q.2 else { q.2 with unsent := q.2.unsent ++ [(c, m)] }
/-- A message of a core that the queue refused before and takes now: one that awaits a reply for an entry held, or another. -/
def State.resend (s : State) (c : Nat) : Option State :=
  let part := (s.core c).part
  let room := (s.hsqPut part []).1 == 0
  if !room then none
  else match s.awaits.find? (fun e => !e.2.sent && (s.awaitEntry c e.2).isSome), s.unsent.find? (fun e => e.1 == c) with
    | some (tag, a), _ => some (s.sendAwait c tag a)
    | none, some m => some { (s.hsqPut part m.2).2 with unsent := s.unsent.erase m }
    | none, none => none
/-- An unserviced trap reported (R355, R339): the message of TYPE 2 and the record of TYPE 21 (R367); the group stays parked. -/
def State.unserviced (s : State) (c : Nat) (g : Group) (t : Trap) : State :=
  let body := leBytes t.cause 4 ++ leBytes t.w0.toNat 4 ++ leBytes t.w1.toNat 4 ++ leBytes t.w2.toNat 4 ++
    leBytes t.lanes.toNat 4 ++ leBytes 0 4 ++ leBytes g.trapVpc.toNat 8
  (s.tell c 2 body).logEvent false 21 (s.core c).part c (s.ctxOf g) [t.w0.zeroExtend 64, t.w1.zeroExtend 64, t.w2.zeroExtend 64]
/-- The BODY of TYPE 4 for a KIND 7 notice (R310, R316). -/
def lostBody (n : Notice) : List Byte :=
  leBytes (n.addr.toNat % 256) 1 ++ leBytes (n.addr.toNat / 256 % 256) 1 ++ leBytes n.ctxid.toNat 2 ++ leBytes n.linear 4 ++ leBytes n.seq 8

/-! ## Faults on a page (R339) -/

/-- A fault on a page: the address, the kind, and the access as TYPE 1 gives it. -/
structure PageFault where
  va : DWord
  kind : Nat
  access : Nat
deriving DecidableEq, Repr
/-- The fault on a page that a trap reports (R339 step 4): MEMORY, or FETCH for a page. -/
def Trap.pageFault (t : Trap) : Option PageFault :=
  let x := t.w0.toNat
  let kind := if t.cause = 5 then x % 16 else if t.cause = 4 ∧ x % 256 = 2 then x / 256 % 16 else 0
  if [kNOTPRESENT, kWRITE, kUSER, kWORLD, kNOEXEC, kBADPTE, kATOMIC, kSTRIPE, kPTEMEM, kNOREMOTE].contains kind then
    some { va := pair t.w1 t.w2, kind,
           access := if t.cause = 4 then 2 else (if t.w0.getLsbD 9 then 1 else 0) + (if t.w0.getLsbD 10 then 4 else 0) }
  else Option.none
/-- The number of the 64 KiB page of an address. -/
def page64 (va : DWord) : Nat := va.toNat / 65536
/-- The DMAP region that holds an address and has not yet backed its page (R339 step 3). -/
def State.unbacked (s : State) (w : Who) (va : DWord) : Option Region :=
  s.regions.find? (fun r => r.part == w.part && r.ctxid == w.ctxid && decide ((va - r.base).toNat < r.len) && !r.backed.contains (page64 va))
/-- Whether the firmware may use a frame of n bytes (R321, R386): in the partition's stacks and not in a firmware reserve. -/
def State.frameOk (s : State) (part pa n : Nat) : Bool :=
  pa % n == 0 && s.inStacks part pa && s.inStacks part (pa + n - 1) && !s.meetsReserve pa n
/-- A frame filled with zeros. -/
def State.zeroFrame (s : State) (pa n : Nat) : State :=
  let inside (a : Nat) : Bool := pa ≤ a && a < pa + n
  let s1 := (s.hostHeld.filter (fun q => inside (64 * q))).foldl (fun s q => s.backInvalidate (64 * q)) s
  { s1 with mem := s1.mem.filter (fun e => !inside e.1), memPoison := s1.memPoison.filter (fun q => !inside (64 * q)) }
/-- The table of a level whose entry for an address stands at pa: the one that the entry names, or a new one on a frame (R319, R320). -/
def State.openTable (s : State) (part pa : Nat) (frames : List Nat) : Option (State × Nat × List Nat) :=
  let e := s.physNat pa 8
  if e % 2 = 1 then (if pte e 10 2 = 0 then some (s, pte e 12 40 * 4096, frames) else none)
  else match frames with
    | [] => none
    | f :: t => if s.frameOk part f 4096 then some ((s.zeroFrame f 4096).writePhysN pa (leBytes (f + 1) 8) false, f, t) else none
/-- The table of level 0 for a 57-bit address, from a table of level lvl on. -/
def State.openTables (s : State) (part va lvl table : Nat) (frames : List Nat) : Option (State × Nat) :=
  match lvl with
  | 0 => some (s, table)
  | l + 1 => match s.openTable part (table + 8 * (va / 2 ^ (12 + 9 * (l + 1)) % 512)) frames with
    | none => none
    | some (s1, t, rest) => s1.openTables part va l t rest
/-- PTE j of a backed 64 KiB page of a region (R320, R411): present, user, cacheable, not global, not executable, of the context's world. -/
def dmapPte (r : Region) (secure : Bool) (frame j : Nat) : Nat :=
  0x491 + (if r.writable then 4 else 0) + (if secure then 64 else 0) + frame + 4096 * j
/-- The page of an address of a region backed (R339 step 3): the first of the free frames takes the page's zeros, and tables that are
missing take the others. None where the frames do not serve. -/
def State.backPage (s : State) (w : Who) (r : Region) (va : DWord) (frames : List Nat) : Option State :=
  match frames with
  | [] => none
  | f :: rest =>
    if !s.frameOk w.part f 65536 || !s.worldOk f 65536 w.secure || rest.any (fun t => f ≤ t && t < f + 65536) || !rest.Nodup then none
    else (State.openTables (s.zeroFrame f 65536) w.part (va57 va) 4 w.root rest).map (fun q =>
      let first := q.2 + 8 * (va57 va / 65536 % 32 * 16)
      let s1 := (List.range 16).foldl (fun s j => s.writePhysN (first + 8 * j) (leBytes (dmapPte r w.secure f j) 8) false) q.1
      { s1 with regions := s1.regions.map (fun x => if x = r then { x with backed := page64 va :: x.backed } else x) })
/-- A fault on a page that a held entry reports served (R339 steps 3 and 4): a minor fault is cured with the free frames and the entry
resumes with RETRY or RESUME, and every other one is forwarded. None where a minor fault finds no frames. -/
def State.serveFault (s : State) (c h : Nat) (e : Moor) (g : Group) (op : Option (Bool × Nat)) (f : PageFault) (frames : List Nat) :
    Option State :=
  let w := s.whoGroup g
  match if f.kind = kNOTPRESENT then s.unbacked w f.va else none with
  | some r => (s.backPage w r f.va frames).map (fun s1 => (s1.moorReply c h e (if e.kind = 1 then 0 else 3) 0).2)
  | none => some (s.newAwait c g op 32
      (leBytes f.va.toNat 8 ++ leBytes (s.ctxOf g).toNat 2 ++ leBytes f.kind 1 ++ leBytes f.access 1))

/-! ## The emulation of retired words (R355, R356) -/

/-- The check of one lane of LDNC: alignment as kind 0, then the context's own tables; a peer-striped page is STRIPE (R356). -/
def State.ldncCheck (s : State) (w : Who) (va : DWord) (n : Nat) : Except Nat (PermEntry × Target) := do
  if va.toNat % n ≠ 0 then throw 0
  if !canonical va then throw kNONCANON
  let e ← if w.ok then s.walk w.part w.ctxid w.asid w.root (va57 va) false else throw kPTEMEM
  if s.hostGone w e then throw kNOTPRESENT
  permCheck w .read e
  if e.stripe.isSome then throw kSTRIPE
  let t ← s.targetOf w e va false
  pure (e, t)
/-- LDNC for the lanes of m (R356): the firmware's fence, the checks, and the loads at the point of coherence. A host sector that
only the link holds is requested, and the service goes on once it has come, with the handle held. -/
def State.serveLdnc (s : State) (c h key : Nat) (g : Group) (r : MWord) (m : Mask) : State :=
  let n := accSize r
  let quit (s : State) (t : Trap) : State := (s.modGroup key (fun g => g.setPend g.trapSlot none)).unserviced c g t
  let poisoned := g.srcPoison r.a.toNat 2 r.au &&& m
  if poisoned ≠ 0 then quit s (poisonTrap 4 ((g.poisonedReg r.a.toNat 2 r.au m).getD r.a.toNat) r.au poisoned)
  else
    let s0 := (s.publish c).refresh c
    let w := s0.whoGroup g
    let checks := (Mask.toLanes m).map (fun l => (l, s0.ldncCheck w (genAddr g r l) n))
    match checks.findSome? (fun q => match q.2 with
      | .error k => some (q.1, k)
      | .ok _ => none) with
    | some (l, k) => (s0.modGroup key (fun g => g.setPend g.trapSlot none)).newAwait c g none 32
        (leBytes (genAddr g r l).toNat 8 ++ leBytes (s.ctxOf g).toNat 2 ++ leBytes k 1 ++ leBytes 0 1)
    | none =>
      let lanes : List GenLane := checks.filterMap (fun q => match q.2 with
        | .ok x => some { lane := q.1, va := genAddr g r q.1, e := x.1, t := x.2 }
        | .error _ => none)
      let q := loadLanes w n .poc key g.trapSlot s0 lanes
      match q.failed with
      | (l, f) :: _ => quit q.s (remoteTrap f (genAddr g r l) (maskOf (fun l => (aget? l q.failed).isSome)))
      | [] =>
        if q.needs.isEmpty then
          let s1 := q.s.modGroup key (fun g =>
            (q.rows.foldl (fun g x => g.landRow r.d.toNat x.1 (loadSx r) x.2.1 x.2.2) g).setPend g.trapSlot none)
          (s1.resumeGroup key true).freeHandle c h
        else
          let (s1, p1) := q.s.requestSectors (slotKey key g.trapSlot) w none (q.s.pendNow key g.trapSlot) q.needs
          s1.modGroup key (fun g => g.setPend g.trapSlot (some p1))
/-- The service of a RETIRED entry that the firmware holds (R355): the field checks, REGBOUND, and the effect with NEXT. A word with PG = 7 and
PN = 1, which R31 calls ILLEGAL and R55 does not list, is reported as ILLEGAL, reason 7 (DESIGN CHOICE, log 68). -/
def State.serveRetired (s : State) (c h key : Nat) (g : Group) : State :=
  let w := pair g.trap.w1 g.trap.w2
  let i := decodeWord w
  let m := g.trap.lanes
  match minReason (fieldsBad i) with
  | some n => s.unserviced c g (illegal w n false false m)
  | none => match regBound g.allot (runsOf i) m with
    | some t => s.unserviced c g t
    | none =>
      if m = 0 then (s.resumeGroup key true).freeHandle c h
      else match i with
        | .ldnc r => s.serveLdnc c h key g r m
        | _ => ((s.setGroup key (g.retiredEffect i m g.trapSlot)).resumeGroup key true).freeHandle c h

/-! ## Entries and notices -/

/-- The engine operation by which an await names a KIND 2 entry. -/
def State.opName (s : State) (c : Nat) (e : Moor) : Option (Bool × Nat) :=
  if e.kind = 2 then (e.op.bind (s.op? c)).map (fun o => (o.gather, o.seq)) else none
/-- The trap that an entry of a group or an operation reports (R301). -/
def State.entryTrap (s : State) (c : Nat) (e : Moor) (g : Group) : Trap :=
  if e.kind = 2 then ((e.op.bind (s.op? c)).map EngineOp.moorTrap).getD g.trap else g.trap
/-- What the firmware does with an entry that it has just popped. An entry for which it awaits a reply, and a system call, which the CALL
events serve, are held. -/
def State.serveMoor (s : State) (c h : Nat) (e : Moor) (frames : List Nat) : State :=
  match if e.kind = 3 then none else s.group? e.key with
  | none => s
  | some g =>
    let op := s.opName c e
    let t := s.entryTrap c e g
    match s.awaits.find? (fun x => s.awaitFor x.2 g op) with
    | some (tag, a) => match a.reply with
      | some b => (s.actOn c tag a b).1
      | none => s
    | none =>
      if t.cause = 2 then s.serveRetired c h e.key g
      else if t.cause = 16 then s
      else match t.pageFault with
        | some f => (s.serveFault c h e g op f frames).getD s
        | none => s.unserviced c g t
/-- What the firmware does next with a mooring entry that it holds; none where it waits. -/
def State.workMoor (s : State) (c h : Nat) (e : Moor) (frames : List Nat) : Option State :=
  if e.kind = 3 then
    match e.blk.bind (fun n => (aget? n s.blocks).map (fun b => (n, b))) with
    | none => some (s.freeHandle c h)
    | some (n, b) => (s.swapStep n b 0).map (fun q => if q.2 then (q.1.followGang b 0).freeHandle c h else q.1)
  else match s.group? e.key with
  | none => none
  | some g =>
    let op := s.opName c e
    let t := s.entryTrap c e g
    match s.awaits.find? (fun x => s.awaitFor x.2 g op) with
    | some (tag, a) => a.reply.map (fun b => (s.actOn c tag a b).1)
    | none =>
      if t.cause = 2 then
        (if (g.pendOf g.trapSlot).any (fun p => p.waiting.isEmpty) then some (s.serveRetired c h e.key g) else none)
      else match t.pageFault with
        | some f => if f.kind = kNOTPRESENT ∧ (s.unbacked (s.whoGroup g) f.va).isSome then s.serveFault c h e g op f frames else none
        | none => none
/-- The entry of a block that the firmware releases with PARK for a swap request (R293, R339, R410): not one whose emulation goes on (R355). -/
def State.parkable (s : State) (c bn : Nat) : Option (Nat × Moor) :=
  (s.core c).mq.find? (fun e => e.2.popped && e.2.kind == 1 && e.2.blk == some bn &&
    (s.group? e.2.key).all (fun g => (g.pendOf g.trapSlot).isNone))
/-- Whether a context is stopped by STOP (R311), or by the failure of the host port (R381). -/
def State.ctxStopped (s : State) (c : Nat) (ctxid : BitVec 16) : Bool := ((s.rawDesc c ctxid).map (s.bars ctxid)).getD false
/-- What the firmware does next for a swap request that it holds (R292, R293, R308): PARK, and the steps of a swap-out to the return list,
or off it for STOP. A request for a block that has gone, or for a context that CONT has released, is done. -/
def State.workNotice (s : State) (c place : Nat) (n : Notice) : Option State :=
  let ack (s : State) : State := s.freeHandle c (128 + place)
  let stop := n.info.toNat / 2 ^ 28 == 3
  match if n.kind = 4 then n.blk else none with
  | none => none
  | some bn => match aget? bn s.blocks with
    | none => some (ack s)
    | some b =>
      if stop && !s.ctxStopped c b.ctxid then some (ack s)
      else match s.parkable c bn with
        | some (h, e) => some (s.moorReply c h e 2 0).2
        | none =>
          let mode := if stop then 1 else 0
          (s.swapStep bn b mode).map (fun q => if q.2 then ack (q.1.followGang b mode) else q.1)
/-- What the firmware does with a notice that it has just popped (R292, R309, R310, R316): a reply is acted on, a lost block is reported, a
block comes back. A reply whose signal waits is left unpopped. -/
def State.serveNotice (s : State) (c place : Nat) (n : Notice) : State :=
  let ack (s : State) : State := s.freeHandle c (128 + place)
  match n.kind with
  | 5 => ack (match n.blk with
      | some bn => (s.swapinBlock c bn).2
      | none => s)
  | 6 => match aget? n.info.toNat s.awaits with
    | none => ack s
    | some a => match s.ctx0Read (s.core c).part n.addr (if a.lane < 32 then 12 else 4) with
      | .error _ => ack s
      | .ok b =>
        let q := s.actOn c n.info.toNat a b
        if q.2 then ack q.1 else q.1.modCore c (fun k => { k with notices := aput place n k.notices })
  | 7 => ack (s.tell c 4 (lostBody n))
  | _ => s
/-- One act of the firmware of a core (DEDUCED, log 66): a message that the queue refused is sent again, an entry or a notice that it holds
moves on, or the next is popped (R301). `frames` are free frames of the partition as the firmware knows them. -/
def State.serve (s : State) (c : Nat) (frames : List Nat) : Out State :=
  let k := s.core c
  if !k.enabled || k.fenced then .fault .noTarget
  else
    let work := (s.resend c).or (((k.notices.filter (fun e => e.2.popped)).findSome? (fun e => s.workNotice c e.1 e.2)).or
      ((k.mq.filter (fun e => e.2.popped)).findSome? (fun e => s.workMoor c e.1 e.2 frames)))
    match work, s.popEntry c with
    | some s1, _ => .next s1
    | none, some (.notice place n, s1) => .next (s1.serveNotice c place n)
    | none, some (.moor h e, s1) => .next (s1.serveMoor c h e frames)
    | none, none => .fault .notNow

end Sys2Proof.Machine
end

