-- ==== Sys2Proof/Machine/Schedule.lean ====
section
/-! DEFINITION. Issue selection (R258, R259), the counters of a cycle (R365, R366), reaching and issuing a word (R346, R348,
R362), and the events that fall due inside the device. -/
namespace Sys2Proof.Machine

/-! ## Readiness -/

/-- Whether the endpoints that a waiting TWAIT names make it go on (R275): one is pending, or none is the group's. -/
def State.twaitOver (s : State) (g : Group) (set : DWord) : Bool :=
  match s.blockOf g with
  | none => true
  | some b => match s.desc g.core b.ctxid with
    | none => true
    | some d =>
      let l := s.epSet b d g.gid set
      l.isEmpty || l.any (fun e => (s.epHead b.part d e).pend != 0)
/-- Whether a member of the group's quad has ended, so that its matrix word looks again (R227). -/
def State.quadBroken (s : State) (g : Group) : Bool :=
  match g.blk with
  | none => true
  | some b => (quadKeys b (g.gid / 4)).any (fun k => ((s.group? k).map (fun h => h.state == .ended)).getD true)
/-- Whether REDs of the core wait for their sector, or host lines that its stores went to are not yet the device's own. -/
def State.unsettled (s : State) (c : Nat) : Bool := s.redsOut c || s.ownsOut c
/-- Whether what slot 0 waits for has come: its word may be reached again. Barriers, grants and quads end their waits themselves. -/
def State.waitReady (s : State) (key : Nat) (g : Group) : Bool :=
  match g.wait with
  | .none => true
  | .again _ => true
  | .bar _ => false
  | .gangbar => false
  | .syscallb => false
  | .regacq _ => false
  | .tbwait n parity => (s.tbFailure g n).isSome || (((s.blockOf g).map (fun b => b.tb n)).getD (tbOf 0)).ready parity
  | .tbwoken _ => true
  | .twait set => s.twaitOver g set
  | .cwait seqs => seqs.all (fun q => s.retiredGrid (s.core g.core).part q)
  | .sleep => s.sleepOver g
  | .joint _ => s.quadBroken g
  | .waitc gather t => decide (g.count gather ≤ t)
  | .engineSlot gather => (s.slotFor g.core key gather).isSome || (s.standing g.core key gather).isSome
  | .undivided => !g.run1
  | .splitTop => match g.stack with
    | e :: _ => !e.split
    | [] => true
  | .halt => s.unpopped g.core
  | .posted x => !s.postedOut g.core (BitVec.ofNat 16 x)
  | .drain b => (aget? b s.blocks).isNone || !s.blockBusy b
  | .tags l => l.all (fun t => (aget? t s.requests).isNone)
  | .lower => true
  | .settle => !s.unsettled g.core
/-- Whether a slot of a group may reach its word (R72, R82, R258): nothing that a link must bring is outstanding, and a stopped
block's slot only ends the word that it has begun. A slot 1 whose mask is empty has StopSecondary to run. -/
def State.slotReady (s : State) (key : Nat) (g : Group) (slot1 : Bool) : Bool :=
  let stopped := ((s.blockOf g).map Block.stopped).getD false
  let pend := g.pendOf slot1
  g.state == .running && !g.parked && pend.all (fun p => p.waiting.isEmpty) && (!stopped || pend.isSome) &&
    (if slot1 then g.run1 && !g.inEntry && !(g.settle1 && s.unsettled g.core)
     else if g.mask0 == 0 then s.resolveReady g
     else s.waitReady key g)

/-! ## Selection (R258, R259) -/

/-- A candidate slot with its rank under rule 4, lower ranks first. -/
structure Candidate where
  key : Nat
  slot1 : Bool
  rank : List Nat
deriving DecidableEq, Repr
/-- The order of ranks. -/
def rankLt : List Nat → List Nat → Bool
  | [], [] => false
  | [], _ :: _ => true
  | _ :: _, [] => false
  | a :: l, b :: m => a < b || (a == b && rankLt l m)
/-- The first of candidates in rank order. -/
def firstCandidate (l : List Candidate) : Option Candidate :=
  l.foldl (fun o c => match o with
    | none => some c
    | some x => if rankLt c.rank x.rank then some c else some x) none
/-- The rank of a slot (R258 rule 4): priority class, youngest last, HPRI first, oldest block, GROUPID, slot. -/
def State.rankOf (s : State) (g : Group) (slot1 : Bool) : List Nat :=
  let b := s.blockOf g
  let prio := ((b.bind s.gridOf).map Grid.prio).getD 0
  let young := !slot1 && (g.young || g.wait == .sleep)
  [7 - prio, if young then 1 else 0, if g.hint then 0 else 1, (b.map Block.age).getD 0, g.gid, if slot1 then 1 else 0]
/-- The user groups of a quarter. -/
def State.quarterGroups (s : State) (c q : Nat) : List (Nat × Group) :=
  s.groups.filter (fun e => e.2.core == c && e.2.pos.any (fun p => p / 16 == q))
/-- The candidates of a quarter. -/
def State.candidates (s : State) (c q : Nat) : List Candidate :=
  (s.quarterGroups c q).flatMap (fun e => [false, true].filterMap (fun slot1 =>
    if s.slotReady e.1 e.2 slot1 then some { key := e.1, slot1, rank := s.rankOf e.2 slot1 } else none))
/-- Whether a tether delivery is ready for slot 0 (R258 rule 2, R281): a TWAIT that may take, or an entry that may land. -/
def State.deliverable (s : State) (key : Nat) (g : Group) : Bool :=
  match g.wait with
  | .twait _ => s.slotReady key g false || s.mayEnter g
  | .again 4 => s.slotReady key g false
  | _ => s.mayEnter g
/-- The number of eligible candidates of a quarter (R365): its ready slots, and slots 0 at which only a tether delivery is ready. -/
def State.eligible (s : State) (c q : Nat) : Nat :=
  (s.candidates c q).length + ((s.quarterGroups c q).filter (fun e => s.deliverable e.1 e.2 && !s.slotReady e.1 e.2 false)).length

/-- What a quarter does in a cycle. -/
inductive Pick where
  | idle
  | issue (key : Nat) (slot1 : Bool)
  | enter (key : Nat)
deriving DecidableEq, Repr
/-- The slot at the rotation token, where it is ready (R259). -/
def State.tokenPick (s : State) (c q token : Nat) : Option Pick :=
  match s.groups.find? (fun e => e.2.core == c && e.2.pos == some (16 * q + token / 2)) with
  | none => none
  | some (key, g) => if s.slotReady key g (token % 2 == 1) then some (.issue key (token % 2 == 1)) else none
/-- The choice of R258 by a quarter of a core, and whether the cycle is given to rules 3 and 4. -/
def State.pick (s : State) (c q : Nat) : Pick × Bool :=
  let sup := match s.group? c with
    | some g => !(s.core c).svIssued && s.slotReady c g false
    | none => false
  if sup then (.issue c false, false)
  else
    let ready := (s.quarterGroups c q).filterMap (fun e =>
      if s.deliverable e.1 e.2 then some { key := e.1, slot1 := false, rank := s.rankOf e.2 false } else none)
    match firstCandidate ready with
    | some x => match s.group? x.key with
      | some g => (if s.slotReady x.key g false && (g.wait.code == 4) then .issue x.key false else .enter x.key, false)
      | none => (.idle, false)
    | none =>
      match s.tokenPick c q (aval 0 q (s.core c).tokens) with
      | some p => (p, true)
      | none => match firstCandidate (s.candidates c q) with
        | some x => (.issue x.key x.slot1, true)
        | none => (.idle, true)

/-! ## Counters (R365, R366) -/

/-- Why slot 0 of a group does not issue (R366). Reasons 0, 11 and 13 stand for times that the model does not count (log 10). -/
def State.stallReason (s : State) (key : Nat) (g : Group) : Nat :=
  if g.parked then 8
  else if g.wait = .lower then 7
  else if s.requests.any (fun e => e.2.kind == .tsend && e.2.key == slotKey key false) then 15
  else if g.pend0.any (fun p => !p.waiting.isEmpty) then 1
  else match g.wait with
    | .bar _ => 4
    | .gangbar => 4
    | .syscallb => 4
    | .tbwait _ _ => 5
    | .tbwoken _ => 5
    | .joint _ => 6
    | .regacq _ => 9
    | .twait _ => 10
    | .sleep => 14
    | .waitc gather _ => if gather then 3 else 2
    | .engineSlot gather => if gather then 3 else 2
    | .posted _ => 1
    | .settle => 1
    | _ => 15
/-- The quarter's oldest resident group (R365): the lowest GROUPID of the oldest block that has a group on the quarter. -/
def State.oldestGroup (s : State) (c q : Nat) : Option (Nat × Group) :=
  (s.quarterGroups c q).foldl (fun o e =>
    let age (x : Nat × Group) : List Nat := [((s.blockOf x.2).map Block.age).getD 0, x.2.gid]
    match o with
    | none => some e
    | some x => if rankLt (age e) (age x) then some e else some x) none
/-- One more in a counter. -/
def countItem (l : List (Nat × DWord)) (item : Nat) : List (Nat × DWord) := aset 0 item (aval 0 item l + 1) l
/-- The counters of a cycle of a quarter: the bin of the eligible candidates, the reason where there is none, and with quarter 0
the cycle itself for every resident block, and as often for the core's totals, which are over all blocks. -/
def State.countCycle (s : State) (c q : Nat) (withheld : Bool) : State :=
  let e := if withheld then 0 else s.eligible c q
  let s1 := if q = 0 then
      { s with blocks := s.blocks.map (fun (x : Nat × Block) =>
        if x.2.core == c then (x.1, { x.2 with bins := countItem x.2.bins 48 }) else x) }.modCore c
          (fun k => { k with totals := aset 0 48 (aval 0 48 k.totals + BitVec.ofNat 64 (s.blocksOn c).length) k.totals })
    else s
  match s1.oldestGroup c q with
  | none => s1
  | some (key, g) =>
    let add (l : List (Nat × DWord)) : List (Nat × DWord) :=
      let l1 := countItem l (min e 16)
      if e = 0 then countItem l1 (32 + (if withheld then 12 else s.stallReason key g)) else l1
    (s1.modBlock (g.blk.getD 0) (fun b => { b with bins := add b.bins })).modCore c (fun k => { k with totals := add k.totals })

/-! ## Issue -/

/-- The BREAK trap of a virtual-PC breakpoint (R362, R295). -/
def breakTrap (n : Nat) (cur : Mask) : Trap := trap0 8 (BitVec.ofNat 32 (2 ^ 16 + 2 ^ 17 * n)) cur
/-- The sector that holds a slot's word is requested over the link that reaches it, and slot 0 waits for the lowering (R346, R366). -/
def State.requestCode (s : State) (key : Nat) (g : Group) (slot1 : Bool) (f : Fetch) : State :=
  let q := s.requestSectors (slotKey key slot1) (s.whoGroup g) none ((g.pendOf slot1).getD Pend.empty) [f]
  q.1.modGroup key (fun g =>
    let g1 := g.setPend slot1 (some q.2)
    if !slot1 && g1.wait == .none then { g1 with wait := .lower } else g1)
/-- The group and slot of `cur` reach their word: the FETCH checks, poisoned code, a breakpoint (R362) but the one that the slot is exempt
from (R363), and then the word's meaning. A word at which slot 1 stops is not issued, so slot 0 reaches it later (R82) and meets the breakpoint. -/
def State.reach (s : State) (g : Group) : Out State :=
  let key := s.cur.key
  let slot1 := s.cur.slot1
  let pc := g.pc slot1
  match s.fetch g slot1 with
  | .trap s1 t => .next (s1.takeTrapAt key g slot1 pc t)
  | .miss s1 f => .next (s1.requestCode key g slot1 f)
  | .word s1 w =>
    match (if slot1 && stopsSlot1 w then none else s1.breakAt (s1.whoGroup g) (g.skipBreak slot1) pc) with
    | some n => .next (s1.takeTrapAt key g slot1 pc (breakTrap n (g.mask slot1)))
    | none => exec (decodeWord w) (if g.wait = .lower then s1.modGroup key (fun g => { g with wait := .none }) else s1)
/-- A slot issues: the Resolve that is due before slot 0's word (R81), StopSecondary for a slot 1 whose mask is empty (R82), or the word. -/
def State.issueSlot (s : State) (key : Nat) (slot1 : Bool) : Out State :=
  match s.group? key with
  | none => .fault .noGroup
  | some g =>
    if !slot1 && g.mask0 == 0 then s.resolveNow key g
    else if slot1 && g.mask1 == 0 then s.stopSecondary key g
    else { s with cur := { key, slot1 } }.reach g
/-- What a quarter's choice does. -/
def State.runPick (s : State) (c : Nat) (p : Pick) : Out State :=
  match p with
  | .idle => .next s
  | .enter key => match s.group? key with
    | some g => .next (s.enter key g)
    | none => .fault .noGroup
  | .issue key slot1 => (if key = c then s.modCore c (fun k => { k with svIssued := true }) else s).issueSlot key slot1
/-- The stall that a miss of the issuing slot costs its quarter (R340, R346, R366): a permission-cache fill and a lowering are done within the
word's step, and stand for one cycle in which the slot is no candidate. Where no other slot is one, that cycle is counted: reason 1 for a
fill, 7 for a lowering, or what the oldest group itself waits for where slot 0 of another group missed (DESIGN CHOICE, log 10). -/
def State.chargeMiss (s : State) (c q key : Nat) (slot1 : Bool) (t : State) : State :=
  let filled := (t.core c).perm.any (fun e => !(s.core c).perm.contains e)
  let lowered := t.units.any (fun u => !s.units.contains u)
  let others := (s.candidates c q).any (fun x => !(x.key == key && x.slot1 == slot1))
  if key == c || others || !(filled || lowered) then t
  else match s.oldestGroup c q with
    | none => t
    | some (k, g) =>
      let reason := if k == key && !slot1 then (if lowered then 7 else 1) else s.stallReason k g
      let add (l : List (Nat × DWord)) : List (Nat × DWord) := countItem (countItem l 0) (32 + reason)
      (t.modBlock (g.blk.getD 0) (fun b => { b with bins := add b.bins })).modCore c (fun k => { k with totals := add k.totals })
/-- What a quarter's choice does, with the stall of its miss. -/
def State.runCharged (s : State) (c q : Nat) (p : Pick) : Out State :=
  match p, s.runPick c p with
  | .issue key slot1, .next t => .next (s.chargeMiss c q key slot1 t)
  | _, o => o
/-- A cycle of a quarter of a core (R258): nothing under a debug stop; the counters only where its section withholds issue
(R393). -/
def State.cycle (s : State) (c q : Nat) : Out State :=
  let k := s.core c
  if s.gated c || !k.enabled || k.fenced then .next s
  else if s.throttled.contains (c / 12) then .next (s.countCycle c q true)
  else
    let s1 := (if q = 0 then s.modCore c (fun k => { k with svIssued := false }) else s).countCycle c q false
    let p := s1.pick c q
    let s2 := if p.2 then s1.modCore c (fun k => { k with tokens := aset 0 q ((aval 0 q k.tokens + 1) % 32) k.tokens }) else s1
    s2.runCharged c q p.1

/-! ## Events that fall due inside the device (DESIGN CHOICE, log 7) -/

/-- The state that an event leaves, where its condition holds. -/
def nextOf (o : Out State) : Option State := match o with
  | .next s => some s
  | .fault _ => none
  | .refused _ => none
/-- What an engine operation does by itself: up to 128 bytes, its completion, or its stop. -/
def State.opDue (s : State) (c : Nat) (o : EngineOp) : Option State :=
  if (s.movable c o.id).isNone then none
  else (nextOf (execEngineBytesDone c o.id 128 s)).or ((nextOf (execEngineOpComplete c o.id s)).or
    ((nextOf (execEngineAccessFault c o.id s)).or (match engNext s c o 1 with
      | .error (.link code va) => some (s.engStop c o (.link code va))
      | .error (.member x kind rva va) => some (s.engStop c o (.member x kind rva va))
      | _ => none)))
/-- What falls due on one core: slot grants, operations, register grants, the trace buffer, work. -/
def State.coreDue (s : State) (e : Nat × Core) : Option State :=
  let c := e.1
  let k := e.2
  if !k.enabled || k.fenced || s.gated c then none
  else
    let grant (gather : Bool) : Option State :=
      if k.ops.any (fun o => o.gather == gather && o.slot.isNone && !(o.complete && o.state != 3)) then
        nextOf (execEngineSlotGrant c gather s) else none
    (grant false).or ((grant true).or ((k.ops.findSome? (s.opDue c)).or
      ((if k.regq.isEmpty then none else (nextOf (execRegacqGrant c s)).or (nextOf (execRegisterStall c s))).or
        ((if k.traceBuf.isEmpty then none else nextOf (execTraceDrain c s)).or
          (if s.mayAsk c then s.answer c else none)))))
/-- What falls due for a block or a grid that no debug stop covers: quads, retirement. -/
def State.gridDue (s : State) : Option State :=
  (s.groups.findSome? (fun e => match e.2.wait, e.2.blk with
    | .joint _, some b => if s.gated e.2.core then none else nextOf (execQuadForm b (e.2.gid / 4) s)
    | _, _ => none)).or
  ((s.blocks.findSome? (fun e =>
    if !s.gated e.2.core && s.blockDone e.1 e.2 && (!(s.core e.2.core).dirtySectors.isEmpty || !s.postedOut e.2.core e.2.ctxid) then
      nextOf (execBlockRetire e.1 s) else none)).or
  (s.grids.findSome? (fun e => if !s.gatedPart e.2.part && s.gridDone e.2 then nextOf (execGridRetire e.2.part e.2.seq s) else none)))
/-- What falls due for a partition that no debug stop covers: the end of a reset, the watchdog, an entry of its ring that is done, the end of
GRACE, enlistments that dissolve, displacement. -/
def State.partDue (s : State) (p : Nat) : Option State :=
  if s.gatedPart p then none
  else if (s.part p).resetting then some (s.resetEnd p)
  else (nextOf (execWatchdogExpire p s)).or ((s.busyDone p).or
    ((if s.hostOrphans.isEmpty then none else (nextOf (execGraceExpire p s)).filter (fun t => decide (t ≠ s))).or
    (((s.part p).enlists.findSome? (fun x => nextOf (execGangEnlistTimeout p x.seq s))).or
    ((nextOf (execDisplaceWaitingParent p s)).or
      (s.grids.findSome? (fun e => if e.2.part == p && e.2.live then nextOf (execDisplaceHigherBlock p e.2.seq s) else none))))))
/-- What falls due on the links: a request context that a request waits for (R379), a response that does not come within LINKTMO (R334), a
kept response that is 2 ms old (R379). -/
def State.linkDue (s : State) : Option State :=
  if s.debugStopped.isEmpty then
    s.ctxReuse.or ((s.requests.findSome? (fun e => nextOf (execLinkResponseTimeout e.1 s))).or
      (s.kept.findSome? (fun k => nextOf (execKeptResponseExpire k.chip k.ctx s))))
  else none
/-- The next event of the device's own that is due. -/
def State.due (s : State) : Option State :=
  ((List.range s.parts.length).findSome? s.partDue).or (s.linkDue.or (s.orphanSwap.or (s.gridDue.or (s.cores.findSome? s.coreDue))))
/-- A debug stop whose tick has come (R358). -/
def State.stopDue (s : State) : Option State := s.debugArmed.findSome? (fun e => nextOf (execDebugStop e.2 s))

/-! ## What moves -/

/-- The partition of a context. -/
def State.ctxPart (s : State) (ctxid : BitVec 16) : Option Nat := (s.ctxCore ctxid).map (fun c => (s.core c).part)
/-- The partition whose cores, blocks, rings, contexts or memory an event would change or use; none for one that acts on the die or its ports. -/
def State.eventPart (s : State) (i : Instr) : Option Nat :=
  let core (c : Nat) : Option Nat := some (s.core c).part
  let block (n : Nat) : Option Nat := (aget? n s.blocks).map Block.part
  let group (k : Nat) : Option Nat := (s.group? k).bind (fun g => core g.core)
  let request (t : Nat) : Option Nat := (aget? t s.requests).map s.makerPart
  let window (n : Nat) : Option Nat := s.ctxPart (s.window n).ctxid
  match i with
  | .quadForm b _ => block b
  | .blockRetire b => block b
  | .tetherEntry k => group k
  | .resolveAfterTret k => group k
  | .stopSecondary k => group k
  | .sleepWake k _ => group k
  | .hostDoorbellStore page _ _ _ => (aget? page s.doorbells).bind (fun d => s.ctxPart d.ctxid)
  | .ualinkInboundAccess r => s.ctxPart (BitVec.ofNat 16 r.ctxid)
  | .ualinkTetherRequest _ _ _ x _ _ => s.ctxPart (BitVec.ofNat 16 x)
  | .peerWindowWrite n _ _ _ _ => window n
  | .peerWindowRead n _ _ _ => window n
  | .peerDoorbellWrite off _ _ => window (off / 64)
  | .hostHdmAccess pa _ _ _ _ => s.partOfMem pa
  | .hostSnoop pa _ => (aget? ((hostBase + pa % 2 ^ 51) / 256) s.llcTag).map LineTag.part
  | .memoryPoisonFound pa => s.partOfMem pa
  | .translationMiss k _ _ => group k
  | .engineSlotGrant c _ => core c
  | .engineBytesDone c _ _ => core c
  | .engineOpComplete c _ => core c
  | .engineAccessFault c _ => core c
  | .engineOpFail c _ _ => core c
  | .regacqGrant c => core c
  | .registerStall c => core c
  | .coreWorkRequest c => core c
  | .mooringEntryTake c => core c
  | .hostReply c _ _ _ => core c
  | .callGetid c _ => core c
  | .callDmap c _ _ => core c
  | .callDunmap c _ => core c
  | .callSigmask c _ => core c
  | .callForwarded c _ => core c
  | .permissionCacheFill c _ _ => core c
  | .permissionCacheEviction c _ => core c
  | .l1Eviction c _ _ => core c
  | .traceDrain c => core c
  | .coreUncorrectableError c _ => core c
  | .createContext r => core r.core
  | .loadPerformed t _ _ _ => request t
  | .postedWriteAck t => request t
  | .postedWriteFail t _ => request t
  | .tetherApertureResponse t _ => request t
  | .linkResponseTimeout t => request t
  | .gangEnlistTimeout p _ => some p
  | .displaceWaitingParent p => some p
  | .displaceHigherBlock p _ => some p
  | .gridRetire p _ => some p
  | .sqtailWrite p _ _ => some p
  | .submitLaunch p _ _ => some p
  | .submitLoad p _ _ _ _ => some p
  | .submitInval p _ _ _ => some p
  | .submitReclaim p _ _ => some p
  | .submitBinddb p _ _ _ => some p
  | .submitWindow p _ _ _ _ => some p
  | .hostBlockWrite p _ _ => some p
  | .graceExpire p => some p
  | .watchdogExpire p => some p
  | .ualinkPortFail _ => none
  | .ualinkPortRetrain _ => none
  | .keptResponseExpire _ _ => none
  | .peerUnsupportedRequest _ => none
  | .hostPortDown => none
  | .hostPortUp _ _ => none
  | .coldReset _ => none
  | .partitionResetRequest _ => none
  | .debugStopArm _ _ => none
  | .debugStop _ => none
  | .spdmCert => none
  | .spdmChal _ => none
  | .spdmMeas => none
  | .extend _ _ => none
  | .lastEventsRead => none
  | .powerCap _ => none
  | .governorTick _ => none
  | .railCurrentThrottle _ _ => none
  | .thermalLimit _ _ => none
  | _ => group s.cur.key
/-- Whether an event is the management core's, which a stop of the die leaves running (R358, R367, R385, R390, R391). -/
def managed (i : Instr) : Bool :=
  match i with
  | .coldReset _ => true
  | .partitionResetRequest _ => true
  | .debugStopArm _ _ => true
  | .lastEventsRead => true
  | .spdmCert => true
  | .spdmChal _ => true
  | .spdmMeas => true
  | .extend _ _ => true
  | .powerCap _ => true
  | .thermalLimit _ _ => true
  | _ => false
/-- Whether a debug stop holds the state that an event would change (R358). -/
def State.barred (s : State) (i : Instr) : Bool :=
  !s.debugStopped.isEmpty && !managed i && (s.debugStopped.contains none || (s.eventPart i).any s.gatedPart)
/-- Whether a debug stop holds the state that a request of the host would change. -/
def State.hostBarred (s : State) (a : HostAct) : Bool :=
  !s.debugStopped.isEmpty && (s.debugStopped.contains none || (match a with
    | .preempt p _ _ => s.gatedPart p
    | .release p _ => s.gatedPart p
    | .readBlock p _ => s.gatedPart p
    | .trace p _ _ => s.gatedPart p
    | .readDoorbell page _ _ => ((aget? page s.doorbells).bind (fun d => s.ctxPart d.ctxid)).any s.gatedPart
    | .readBar2 off _ => (s.ctxPart (s.window (off / 64)).ctxid).any s.gatedPart
    | .readConfig => false
    | .spdmCaps => false
    | .mailbox _ => false))
/-- One move (DESIGN CHOICE, log 7). -/
def State.move (s : State) (m : Move) : Out State :=
  match m with
  | .cycle c q => s.cycle c q
  | .event i => if s.barred i then .fault .notNow else exec i s
  | .serve c frames => if s.gated c then .fault .notNow else s.serve c frames
  | .host a => if s.hostBarred a then .fault .notNow else s.host a
  | .corrected port => if hostPortNo < port then .fault .noTarget else .next { s with aer := aput port (aval 0 port s.aer + 1) s.aer }
/-- The time that a step takes (R10, R13; DESIGN CHOICE, log 6): 1 where it ends a round of the quarters' cycles, and a free amount; none
while a debug stop stands (R358). A count of 64 bits does not wrap in any run of a device, so a later sample is not less (R101). -/
def State.elapse (s : State) (round : Bool) : State :=
  if s.debugStopped.isEmpty then
    { s with tick := BitVec.ofNat 64 (min (2 ^ 64 - 1) (s.tick.toNat + (Config.tickAdvance s.freeCtr).toNat + (if round then 1 else 0))),
             freeCtr := s.freeCtr + 1 }
  else s
/-- The move that the machine makes: a debug stop that is due, else the head of the agenda, else an event that is due, else the next quarter
in turn. -/
def State.advanceMachine (s : State) : Out State :=
  match s.stopDue with
  | some t => .next t
  | none => match s.agenda with
    | m :: rest => { s with agenda := rest }.move m
    | [] => match s.due with
      | some t => .next t
      | none => { s with turn := (s.turn + 1) % 576 }.cycle (s.turn / 4) (s.turn % 4)

end Sys2Proof.Machine
end

