-- ==== Sys2Proof/Machine/Step.lean ====
section
/-! DEFINITION. The step, and the state in which the next step runs a given word. -/
namespace Sys2Proof.Machine

/-- A step: one move of the machine, after which its time has passed. -/
def step (s : State) : Host.Outcome State Fault Refusal :=
  match s.advanceMachine with
  | .next t => .next (t.elapse (s.turn == 575 && t.turn == 0))
  | .fault f => .fault f
  | .refused r => .refused r

/-- The state in which the next step runs the instruction whose one 64-bit word has the bits w (R26): the device with its context,
its tables and its code placed from outside (DESIGN CHOICE, log 8). A word of more than 64 bits does not exist, and its low 64 bits are placed. -/
def State.withFetchWord (s : State) (nbits w : Nat) : State :=
  let _ := nbits
  s.placeWord (BitVec.ofNat 64 w)

end Sys2Proof.Machine
end

