-- ==== Sys2Proof/Safety.lean ====
section
/-! DEFINITION. What counts as a safe run: every step answers a next state. -/
namespace Sys2Proof.Machine

/-- k steps from s answer next states only, the last of which is t. -/
def SafeRun (k : Nat) (s t : State) : Prop :=
  match k with
  | 0 => s = t
  | k + 1 => ∃ u, step s = .next u ∧ SafeRun k u t

end Sys2Proof.Machine
end

