-- ==== Sys2Proof/Certificates/Slice0/Obligations.lean ====
section
/-! DEFINITION. The statements for the provers, with the vocabulary in which they are written: when a word issues, what a word
writes, what it leaves as it was, and how a word that acts on more than its group ends. -/
namespace Sys2Proof.Claims
open Sys2Proof Sys2Proof.Machine

/-! ## When a word issues -/

/-- The word i issues in s as a word of the group g with ACTIVE m (R5, R57, R82, R83), where `bad` and `runs` are the reasons
and register runs that its format slot gives: `cur` names g; slot 1 does not stop before the word; slot 0 does not wait for
slot 1, or the word is a GANGBAR that traps before it would (R254); no check of R51, R57, R280 traps; and m is ACTIVE under the guard. -/
def IssuesWith (i : Instr) (s : State) (g : Group) (m : Mask) (bad : List Nat) (runs : List RegRun) : Prop :=
  s.group? s.cur.key = some g ∧ (s.cur.slot1 = true → stopsSlot1 (wordOf i) = false) ∧
    (s.cur.slot1 = false → g.inEntry = true ∨ g.divided = false ∨ slot0Waits (wordOf i) = false ∨
      s.gangless (wordOf i) g = true) ∧
    decodeChecks i g s.cur.slot1 bad runs = none ∧ m = g.active s.cur.slot1 (guardOf i).1 (guardOf i).2
/-- The word i issues, where no format slot is concerned. -/
abbrev Issues (i : Instr) (s : State) (g : Group) (m : Mask) : Prop := IssuesWith i s g m [] []

/-! ## What a word writes, and what it leaves -/

/-- What a word writes (R5, R6, R35): a run of registers from d, lane registers in the lanes of ACTIVE or, under `ud`, uniform
registers once with the lowest ACTIVE lane's values; the poison of each; a predicate register; and flags. -/
structure Writes where
  ud : Bool := false
  d : Nat := 0
  vals : List (Nat → Word) := []
  poison : Nat → Mask := fun _ => 0
  pred : Option (Nat × Mask) := none
  flags : Flags := 0
/-- Lane l of lane register k is written. -/
def Writes.lane (w : Writes) (m : Mask) (k l : Nat) : Bool := !w.ud && w.d ≤ k && k < w.d + w.vals.length && m.getLsbD l
/-- Uniform register k is written. -/
def Writes.uni (w : Writes) (m : Mask) (k : Nat) : Bool := w.ud && w.d ≤ k && k < w.d + w.vals.length && m != 0
/-- The value of register k of the run for lane l. -/
def Writes.val (w : Writes) (k l : Nat) : Word := w.vals.getD (k - w.d) (fun _ => 0) l
/-- Lane l of predicate register k is written. A write to p7 is discarded (R30). -/
def Writes.predLane (w : Writes) (m : Mask) (k l : Nat) : Bool := k != 7 && w.pred.map Prod.fst == some k && m.getLsbD l

/-- The registers, predicates, poison and flags of h are those of g but for what w writes. -/
def Wrote (slot1 : Bool) (m : Mask) (w : Writes) (g h : Group) : Prop :=
  (∀ k l, l < 32 → h.getV k l = if w.lane m k l then w.val k l else g.getV k l) ∧
  (∀ k l, l < 32 → (h.poisonV k).getLsbD l = if w.lane m k l then (w.poison (k - w.d)).getLsbD l else (g.poisonV k).getLsbD l) ∧
  (∀ k, h.getS k = if w.uni m k then w.val k (lowLane m) else g.getS k) ∧
  (∀ k, k < 64 → h.poisonS k = if w.uni m k then (w.poison (k - w.d)).getLsbD (lowLane m) else g.poisonS k) ∧
  (∀ k l, l < 32 → (h.getP k).getLsbD l =
    if w.predLane m k l then ((w.pred.map Prod.snd).getD 0).getLsbD l else (g.getP k).getLsbD l) ∧
  (if slot1 then h.held = g.held ||| (if m = 0 then 0 else w.flags) ∧ h.fpflags = g.fpflags
    else h.fpflags = g.fpflags ||| (if m = 0 then 0 else w.flags).zeroExtend 32 ∧ h.held = g.held)
/-- Every other part of the group is as it was, but for the slot's PC and the marks that the commit of its word ends: its wait,
its retry (R72, R302, R363). -/
def KeptRest (slot1 : Bool) (g h : Group) : Prop :=
  if slot1 then
    { h with v := g.v, s := g.s, p := g.p, vPoison := g.vPoison, sPoison := g.sPoison, fpflags := g.fpflags, held := g.held,
             pc1 := g.pc1, retry1 := g.retry1, pend1 := g.pend1, settle1 := g.settle1 } = g
  else
    { h with v := g.v, s := g.s, p := g.p, vPoison := g.vPoison, sPoison := g.sPoison, fpflags := g.fpflags, held := g.held,
             pc0 := g.pc0, retry0 := g.retry0, pend0 := g.pend0, wait := g.wait, young := g.young } = g
/-- The word i completes in s (R5, R6): the next state is s with the group of `cur` changed and nothing else, so memory, every
other group and every register of a core are as they were; the group is changed by w, and its slot stands at pc. -/
def CompletesAt (i : Instr) (s : State) (g : Group) (m : Mask) (w : Writes) (pc : DWord) : Prop :=
  ∃ h, exec i s = .next (s.setGroup s.cur.key h) ∧ h.pc s.cur.slot1 = pc ∧ Wrote s.cur.slot1 m w g h ∧ KeptRest s.cur.slot1 g h
/-- The word i completes and its slot stands at the next word. -/
abbrev Completes (i : Instr) (s : State) (g : Group) (m : Mask) (w : Writes) : Prop :=
  CompletesAt i s g m w (g.pc s.cur.slot1 + 8)
/-- The word i completes in s as `Completes` says, and what it takes beside its group's registers leaves the state t. -/
def CompletesFrom (i : Instr) (s t : State) (g : Group) (m : Mask) (w : Writes) : Prop :=
  ∃ h, exec i s = .next (t.setGroup s.cur.key h) ∧ h.pc s.cur.slot1 = g.pc s.cur.slot1 + 8 ∧ Wrote s.cur.slot1 m w g h ∧
    KeptRest s.cur.slot1 g h
/-- A row of a table of words: the word, when it does not trap, and what it writes. -/
structure Row where
  i : Instr
  ok : Prop := True
  w : Writes
/-- Every word of a table completes with what its row writes. -/
def TableHolds (s : State) (g : Group) (m : Mask) (t : List Row) : Prop :=
  ∀ e ∈ t, Issues e.i s g m → e.ok → Completes e.i s g m e.w
/-- The word i ends in a state in which its group is h, its slot at the next word, and which P describes. -/
def Ends (i : Instr) (s : State) (h : Group) (P : State → Prop) : Prop :=
  ∃ t, exec i s = .next t ∧ t.group? s.cur.key = some (h.advance s.cur.slot1) ∧ P t
/-- The word i traps (R7): the next state is that of the one operation that takes every trap, at the word's own PC. -/
def TrapsIn (i : Instr) (s : State) (g : Group) (t : Trap) : Prop :=
  exec i s = .next (s.takeTrapAt s.cur.key g s.cur.slot1 (g.pc s.cur.slot1) t)

/-! ## Rows of the integer words (R96 to R103) -/

/-- A 32-bit destination. -/
def w32 (r : RWord) (poison : Mask) (f : Nat → Word) : Writes :=
  { ud := xbit r 0, d := r.d.toNat, vals := [f], poison := fun _ => poison }
/-- A 64-bit destination: the low word in D, the high word in D + 1. -/
def w64 (r : RWord) (poison : Mask) (f : Nat → DWord) : Writes :=
  { ud := xbit r 0, d := r.d.toNat, vals := [fun l => (f l).extractLsb' 0 32, fun l => (f l).extractLsb' 32 32], poison := fun _ => poison }
/-- A 32-bit destination of an I-form word. -/
def wI (g : Group) (r : IWord) (f : Word → Word) : Writes :=
  { d := r.d.toNat, vals := [fun l => f (g.getV r.a.toNat l)], poison := fun _ => g.poisonV r.a.toNat }
/-- A predicate destination. -/
def wP (r : RWord) (f : Nat → Bool) : Writes := { pred := some (r.d.toNat, maskOf f) }
/-- An exact result narrowed to 32 bits under TY and SAT (R93). -/
def wZ (g : Group) (r : RWord) (nc : Nat) (f : Nat → Int) : Writes :=
  w32 r (poisonOf g r 1 1 nc) (fun l => narrow 32 (xbit r 6) (sgn r) (f l))
/-- The arithmetic words (R96, R97). -/
def arithTable (g : Group) (m : Mask) (r : RWord) (q : IWord) : List Row :=
  let a := zA g r
  let b := zB g r
  let c := zC g r
  let noZero : Prop := g.arithmode.getLsbD 1 = false ∨ ∀ l, l < 32 → m.getLsbD l = true → opB g r l ≠ 0
  [{ i := .iadd r, w := wZ g r 0 (fun l => a l + b l) },
   { i := .iadd3 r, w := wZ g r 1 (fun l => a l + b l + c l) },
   { i := .isub r, w := wZ g r 0 (fun l => a l - b l) },
   { i := .imul r, w := wZ g r 0 (fun l => a l * b l) },
   { i := .imulh r, w := wZ g r 0 (fun l => a l * b l / 2 ^ 32) },
   { i := .imad r, w := wZ g r 1 (fun l => a l * b l + c l) },
   { i := .imadw r, w := w64 r (poisonOf g r 1 1 2) (fun l => narrow 64 (xbit r 6) (sgn r) (a l * b l + zC64 g r l)) },
   { i := .imin r, w := wZ g r 0 (fun l => if a l ≤ b l then a l else b l) },
   { i := .imax r, w := wZ g r 0 (fun l => if a l ≤ b l then b l else a l) },
   { i := .isad r, w := wZ g r 1 (fun l => ((a l - b l).natAbs : Int) + c l) },
   { i := .idot4 r, w := wZ g r 1 (fun l => c l + dotSum 4 8 (xbit r 2) (xbit r 1) (opA g r l) (opB g r l)) },
   { i := .idot8 r, w := wZ g r 1 (fun l => c l + dotSum 8 4 (xbit r 2) (xbit r 1) (opA g r l) (opB g r l)) },
   { i := .idiv r, ok := noZero, w := w32 r (poisonOf g r 1 1 0) (fun l =>
       if opB g r l = 0 then 0xFFFFFFFF else narrow 32 (xbit r 6) (sgn r) (Int.tdiv (a l) (b l))) },
   { i := .irem r, ok := noZero, w := w32 r (poisonOf g r 1 1 0) (fun l =>
       if opB g r l = 0 then opA g r l else BitVec.ofInt 32 (Int.tmod (a l) (b l))) },
   { i := .iaddI q, w := wI g q (fun x => x + q.imm) },
   { i := .imulI q, w := wI g q (fun x => x * q.imm) }]
/-- The words of comparison, selection, logic and bits (R98). -/
def logicTable (g : Group) (m : Mask) (r : RWord) (q : IWord) : List Row :=
  let a := opA g r
  let b := opB g r
  let c := opC g r
  let p := poisonOf g r 1 1 0
  let sel (l : Nat) : Bool := (g.getP r.c.toNat).getLsbD l != r.nc
  [{ i := .icmp r, ok := g.consume 3 m [(r.a.toNat, 1, r.ua), (r.b.toNat, 1, r.ub)] = .ok (),
     w := wP r (fun l => match xf r 1 3 with
       | 0 => zA g r l == zB g r l
       | 1 => zA g r l != zB g r l
       | 2 => zA g r l < zB g r l
       | 3 => zA g r l ≤ zB g r l
       | 4 => zA g r l > zB g r l
       | _ => zA g r l ≥ zB g r l) },
   { i := .sel r, w := w32 r (maskOf (fun l => if sel l then (g.srcPoison r.a.toNat 1 r.ua).getLsbD l else (g.srcPoison r.b.toNat 1 r.ub).getLsbD l))
       (fun l => if sel l then a l else b l) },
   { i := .andR r, w := w32 r p (fun l => a l &&& b l) },
   { i := .orR r, w := w32 r p (fun l => a l ||| b l) },
   { i := .xorR r, w := w32 r p (fun l => a l ^^^ b l) },
   { i := .lop3 r, w := w32 r (poisonOf g r 1 1 1) (fun l => maskOf (fun k => tbl3 (xf r 1 8)
       ((g.src r.a.toNat r.ua l).getLsbD k != r.na) ((g.src r.b.toNat r.ub l).getLsbD k != r.nb) ((g.src r.c.toNat r.uc l).getLsbD k != r.nc))) },
   { i := .shl r, w := w32 r p (fun l => a l <<< (b l).toNat) },
   { i := .shr r, w := w32 r p (fun l => a l >>> (b l).toNat) },
   { i := .sar r, w := w32 r p (fun l => (a l).sshiftRight (b l).toNat) },
   { i := .shf r, w := w32 r (poisonOf g r 1 1 1) (fun l => shfWord (xbit r 2) (xbit r 1) (a l) (b l) (c l)) },
   { i := .bfe r, w := w32 r p (fun l => bfeWord (sgn r) (a l) (b l)) },
   { i := .bfi r, w := w32 r (poisonOf g r 1 1 1) (fun l => bfiWord (a l) (b l) (c l)) },
   { i := .brev r, w := w32 r (poisonOf g r 1 0 0) (fun l => (a l).reverse) },
   { i := .clz r, w := w32 r (poisonOf g r 1 0 0) (fun l => (a l).clz) },
   { i := .popc r, w := w32 r (poisonOf g r 1 0 0) (fun l => BitVec.ofNat 32 ((List.range 32).countP (fun k => (a l).getLsbD k))) },
   { i := .ffs r, w := w32 r (poisonOf g r 1 0 0) (fun l => if xbit r 1 then highBit (a l) else lowBit (a l)) },
   { i := .prmt r, w := w32 r (poisonOf g r 1 1 1) (fun l => prmtWord (a l) (b l) (c l)) },
   { i := .andI q, w := wI g q (fun x => x &&& q.imm) },
   { i := .orI q, w := wI g q (fun x => x ||| q.imm) },
   { i := .xorI q, w := wI g q (fun x => x ^^^ q.imm) }]
/-- The 64-bit value of an immediate under IM (R40): under 01 it stands in bits 63:32 above 0, otherwise it is sign-extended. -/
def imm64 (q : IWord) : DWord := if q.im = 1 then q.imm ++ (0 : Word) else q.imm.signExtend 64
/-- The words that move, form addresses and compute at 64 bits (R99, R102). -/
def moveTable (g : Group) (m : Mask) (r : RWord) (q : IWord) : List Row :=
  let a := zA64 g r
  let b := zB64 g r
  let z (f : Nat → Int) : Writes := w64 r (poisonOf g r 2 2 0) (fun l => narrow 64 (xbit r 6) (sgn r) (f l))
  [{ i := .mov r, w := if xbit r 1 then w64 r (poisonOf g r 2 0 0) (fun l => g.src64 r.a.toNat r.ua l)
       else w32 r (poisonOf g r 1 0 0) (fun l => g.src r.a.toNat r.ua l) },
   { i := .movi q, w := { d := q.d.toNat, vals := if q.im = 1 then [fun _ => 0, fun _ => q.imm] else [fun _ => q.imm] } },
   { i := .movis q, w := { ud := true, d := q.d.toNat, vals := if q.im = 1 then [fun _ => 0, fun _ => q.imm] else [fun _ => q.imm] } },
   { i := .lea r, w := w64 r (poisonOf g r 2 1 0) (fun l =>
       g.src64 r.a.toNat r.ua l + BitVec.ofInt 64 (toZ (sgn r) (g.src r.b.toNat r.ub l) * 2 ^ xf r 1 3)) },
   { i := .add64 r, w := z (fun l => a l + b l) },
   { i := .sub64 r, w := z (fun l => a l - b l) },
   { i := .mul64 r, w := z (fun l => a l * b l) },
   { i := .add64I q, w := {
       d := q.d.toNat, poison := fun _ => g.srcPoison q.a.toNat 2 false,
       vals := [fun l => (g.src64 q.a.toNat false l + imm64 q).extractLsb' 0 32, fun l => (g.src64 q.a.toNat false l + imm64 q).extractLsb' 32 32] } },
   { i := .cmp64 r, ok := g.consume 3 m [(r.a.toNat, 2, r.ua), (r.b.toNat, 2, r.ub)] = .ok (),
     w := wP r (fun l => ccHolds (xf r 1 3) (a l) (b l)) },
   { i := .movrx r,
     ok := g.consume 1 m [(r.b.toNat, 1, r.ub)] = .ok () ∧
       ∀ l, l < 32 → m.getLsbD l = true → 0 ≤ indexOf g r.a.toNat r l ∧ indexOf g r.a.toNat r l < g.allot,
     w := { d := r.d.toNat, vals := [fun l => g.getV (indexOf g r.a.toNat r l).toNat l],
            poison := fun _ => maskOf (fun l => (g.poisonV (indexOf g r.a.toNat r l).toNat).getLsbD l) } }]
/-- The words that exchange between lanes and form predicates (R103): `cur` is the current mask. -/
def exchangeTable (g : Group) (cur m : Mask) (r : RWord) : List Row :=
  let from' (l : Nat) : Option Nat := shflLane r cur (g.src r.b.toNat r.ub l).toNat l
  let t := m &&& (if xbit r 3 then ~~~(g.getP r.a.toNat) else g.getP r.a.toNat)
  let all (b : Bool) : Mask := if b then BitVec.allOnes 32 else 0
  let val (l : Nat) : DWord := if xbit r 2 then opA64 g r l else (opA g r l).zeroExtend 64
  [{ i := .shfl r, ok := g.consume 2 m [(r.b.toNat, 1, r.ub)] = .ok (),
     w := { d := r.d.toNat,
            vals := [fun l => match from' l with
              | some k => opA g r k
              | none => g.src r.c.toNat r.uc l],
            poison := fun _ => maskOf (fun l => match from' l with
              | some k => (g.srcPoison r.a.toNat 1 r.ua).getLsbD k
              | none => (g.srcPoison r.c.toNat 1 r.uc).getLsbD l) } },
   { i := .vote r, w := match xf r 1 2 with
       | 0 => { pred := some (r.d.toNat, all (t != 0)) }
       | 1 => { pred := some (r.d.toNat, all (t == m)) }
       | 2 => { pred := some (r.d.toNat, all (t == m || t == 0)) }
       | _ => { ud := xbit r 5, d := r.d.toNat, vals := [fun _ => t] } },
   { i := .redux r, w := {
       ud := xbit r 5, d := r.d.toNat, vals := [fun _ => reduxOf r g (Mask.toLanes m)],
       poison := fun _ => all ((g.srcPoison r.a.toNat 1 r.ua &&& m) != 0) } },
   { i := .matchL r, w := {
       d := r.d.toNat,
       vals := [fun l => if xbit r 1 then BitVec.ofNat 32 ((Mask.toLanes m).map val).eraseDups.length
         else maskOf (fun k => m.getLsbD k && val k == val l)],
       poison := fun _ => all ((g.srcPoison r.a.toNat (if xbit r 2 then 2 else 1) r.ua &&& m) != 0) } },
   { i := .pset r, w := wP r (fun l =>
       tbl3 (xf r 1 8) ((g.getP r.a.toNat).getLsbD l) ((g.getP r.b.toNat).getLsbD l) ((g.getP r.c.toNat).getLsbD l)) },
   { i := .p2v r, w := { d := r.d.toNat, vals := [fun l => maskOf (fun i => i < 8 && (g.getP i).getLsbD l)] } },
   { i := .nop r, w := {} }]

/-! ## Rows of the floating words (R117 to R133) -/

/-- No ACTIVE lane raises a flag that FPMODE enables (R113); a uniform destination makes one computation. -/
def Quiet (g : Group) (ud : Bool) (m : Mask) (f : Nat → Flags) : Prop :=
  if ud then f (lowLane m) &&& g.fpmode.truncate 5 = 0
  else ∀ l, l < 32 → m.getLsbD l = true → f l &&& g.fpmode.truncate 5 = 0
/-- The flags that the computed lanes raise. -/
def raised (ud : Bool) (m : Mask) (f : Nat → Flags) : Flags := if ud then f (lowLane m) else orFlagsOf m f
/-- A row of a floating word: the encoding and the flags that each lane gets. -/
def fRow (i : Instr) (g : Group) (m : Mask) (r : RWord) (wide : Bool) (poison : Mask) (res : Nat → Nat × Flags) : Row :=
  { i, ok := Quiet g (fpUd r) m (fun l => (res l).2),
    w := { ud := fpUd r, d := r.d.toNat, poison := fun _ => poison, flags := raised (fpUd r) m (fun l => (res l).2),
           vals := if wide then [fun l => BitVec.ofNat 32 (res l).1, fun l => BitVec.ofNat 32 ((res l).1 / 2 ^ 32)]
             else [fun l => BitVec.ofNat 32 (res l).1] } }
/-- A row of a word that rounds an exact operation on one, two or three sources once (R118). -/
def fRow1 (i : Instr) (g : Group) (m : Mask) (r : RWord) (f : Fmt) (op : Ex → Ex × Flags) : Row :=
  fRow i g m r (f.width == 64) (poisonOf g r (regsOf f) 0 0) (fun l => fpFinish f r (op (f.dec (encA f g r l))))
def fRow2 (i : Instr) (g : Group) (m : Mask) (r : RWord) (f : Fmt) (op : Ex → Ex → Ex × Flags) : Row :=
  fRow i g m r (f.width == 64) (poisonOf g r (regsOf f) (regsOf f) 0)
    (fun l => fpFinish f r (op (f.dec (encA f g r l)) (f.dec (encB f g r l))))
def fRow3 (i : Instr) (g : Group) (m : Mask) (r : RWord) (f : Fmt) (op : Ex → Ex → Ex → Ex × Flags) : Row :=
  fRow i g m r (f.width == 64) (poisonOf g r (regsOf f) (regsOf f) (regsOf f))
    (fun l => fpFinish f r (op (f.dec (encA f g r l)) (f.dec (encB f g r l)) (f.dec (encC f g r l))))
/-- A row of a minimum or maximum, which is exact (R121). -/
def mmRow (i : Instr) (g : Group) (m : Mask) (r : RWord) (f : Fmt) (isMax : Bool) : Row :=
  fRow i g m r (f.width == 64) (poisonOf g r (regsOf f) (regsOf f) 0) (fun l => minMax f isMax (encA f g r l) (encB f g r l))
/-- A row of a comparison (R122). -/
def cmpRow (i : Instr) (g : Group) (m : Mask) (r : RWord) (f : Fmt) : Row :=
  let res (l : Nat) : Bool × Flags := cmpHolds r.c.toNat (f.dec (encA f g r l)) (f.dec (encB f g r l))
  { i, ok := g.consume 3 m [(r.a.toNat, regsOf f, r.ua), (r.b.toNat, regsOf f, r.ub)] = .ok () ∧ Quiet g false m (fun l => (res l).2),
    w := { wP r (fun l => (res l).1) with flags := raised false m (fun l => (res l).2) } }
/-- A row of an I-form floating word, to nearest (R120). -/
def fRowI (i : Instr) (g : Group) (m : Mask) (q : IWord) (op : Ex → Ex → Ex × Flags) : Row :=
  let b : Nat := if q.im = 2 then q.imm.toNat else (roundTo f32 (Ex.ofInt q.imm.toInt) 0 false 0).1
  let res (l : Nat) : Nat × Flags :=
    let x := op (f32.dec (g.getV q.a.toNat l).toNat) (f32.dec b)
    ((roundTo f32 x.1 0 false 0).1, x.2 ||| (roundTo f32 x.1 0 false 0).2)
  { i, ok := Quiet g false m (fun l => (res l).2),
    w := { d := q.d.toNat, vals := [fun l => BitVec.ofNat 32 (res l).1], poison := fun _ => g.poisonV q.a.toNat,
           flags := raised false m (fun l => (res l).2) } }
/-- The FP32 words (R119 to R125). -/
def floatTable (g : Group) (m : Mask) (r : RWord) (q : IWord) : List Row :=
  [fRow2 (.fadd r) g m r f32 (exAdd (rmOf r)), fRow2 (.fmul r) g m r f32 exMul, fRow3 (.ffma r) g m r f32 (exFma (rmOf r)),
   fRow2 (.fdiv r) g m r f32 (exDiv (fpBits f32)), fRow1 (.frcp r) g m r f32 (exDiv (fpBits f32) exOne),
   fRow1 (.frsq r) g m r f32 (exRsqrt (fpBits f32)), fRow1 (.fsqrt r) g m r f32 (exSqrt (fpBits f32)),
   fRow1 (.fex2 r) g m r f32 exExp2, fRow1 (.flg2 r) g m r f32 exLog2, fRow1 (.fsin r) g m r f32 exSinPi,
   fRow1 (.fcos r) g m r f32 exCosPi, fRow1 (.ftanh r) g m r f32 exTanh,
   mmRow (.fmin r) g m r f32 false, mmRow (.fmax r) g m r f32 true, cmpRow (.fcmp r) g m r f32,
   fRow (.fclass r) g m r false (poisonOf g r (regsOf (fmtOf r.c.toNat)) 0 0)
     (fun l => (2 ^ classBit (fmtOf r.c.toNat) (encA (fmtOf r.c.toNat) g r l), 0)),
   fRow (.frnd r) g m r false (poisonOf g r 1 0 0) (fun l => frndEnc f32 (rmOf r) (encA f32 g r l)),
   fRowI (.faddI q) g m q (exAdd 0), fRowI (.fmulI q) g m q exMul]
/-- The FP64 words (R126). -/
def doubleTable (g : Group) (m : Mask) (r : RWord) : List Row :=
  [fRow2 (.dadd r) g m r f64 (exAdd (rmOf r)), fRow2 (.dmul r) g m r f64 exMul, fRow3 (.dfma r) g m r f64 (exFma (rmOf r)),
   fRow2 (.ddiv r) g m r f64 (exDiv (fpBits f64)), fRow1 (.dsqrt r) g m r f64 (exSqrt (fpBits f64)),
   mmRow (.dmin r) g m r f64 false, mmRow (.dmax r) g m r f64 true, cmpRow (.dcmp r) g m r f64]
/-- The two elements of a packed result, low element first (R127). -/
def two (f : Nat → Nat × Flags) : Nat × Flags := ((f 0).1 + 65536 * (f 1).1, (f 0).2 ||| (f 1).2)
/-- The packed words of one format (R39, R127): each element as its scalar word computes it. -/
def packRows (add mul fma min max cmp : Instr) (g : Group) (m : Mask) (r : RWord) (f : Fmt) : List Row :=
  let a (l k : Nat) : Nat := packA f g r l k
  let b (l k : Nat) : Nat := Sys2Proof.Machine.packB f g r l k
  let c (l k : Nat) : Nat := packC f g r l k
  let p := poisonOf g r 1 1 0
  [fRow add g m r false p (fun l => two (fun k => fpFinish f r (exAdd (rmOf r) (f.dec (a l k)) (f.dec (b l k))))),
   fRow mul g m r false p (fun l => two (fun k => fpFinish f r (exMul (f.dec (a l k)) (f.dec (b l k))))),
   fRow fma g m r false (poisonOf g r 1 1 1)
     (fun l => two (fun k => fpFinish f r (exFma (rmOf r) (f.dec (a l k)) (f.dec (b l k)) (f.dec (c l k))))),
   fRow min g m r false p (fun l => two (fun k => minMax f false (a l k) (b l k))),
   fRow max g m r false p (fun l => two (fun k => minMax f true (a l k) (b l k))),
   fRow cmp g m r false p (fun l => two (fun k =>
     let x := cmpHolds r.c.toNat (f.dec (a l k)) (f.dec (b l k))
     (if x.1 then 0xFFFF else 0, x.2)))]
/-- The packed words (R127). -/
def packTable (g : Group) (m : Mask) (r : RWord) : List Row :=
  packRows (.padd2F16 r) (.pmul2F16 r) (.pfma2F16 r) (.pmin2F16 r) (.pmax2F16 r) (.pcmp2F16 r) g m r f16 ++
    packRows (.padd2Bf16 r) (.pmul2Bf16 r) (.pfma2Bf16 r) (.pmin2Bf16 r) (.pmax2Bf16 r) (.pcmp2Bf16 r) g m r bf16
/-- The conversions (R128 to R131): CVT of one value, CVTP of as many as a register of the narrower format holds. -/
def convertTable (g : Group) (m : Mask) (r : RWord) : List Row :=
  let df := r.b.toNat / 16
  let sf := r.b.toNat % 16
  let wide := fmtWidth sf == 64
  let src (l : Nat) : Nat := if wide then (g.src64 r.a.toNat r.ua l).toNat else (g.src r.a.toNat r.ua l).toNat
  let one (l : Nat) : Nat × Flags := convert df sf (cvtSource sf r.na r.aa (src l)) (rmOf r) (satOf r) (sclOf r) (rbitsOf g r l).toNat
  let n := 32 / min (fmtWidth df) (fmtWidth sf)
  let per := 32 / fmtWidth df
  let flags (l : Nat) : Flags := (List.range n).foldl (fun f k => f ||| (cvtpElem g r l k).2) 0
  [fRow (.cvt r) g m r (fmtWidth df == 64) (cvtPoison g r (if wide then 2 else 1)) (fun l => (cvtExtend df (one l).1, (one l).2)),
   { i := .cvtp r, ok := Quiet g (fpUd r) m flags,
     w := { ud := fpUd r, d := r.d.toNat, flags := raised (fpUd r) m flags,
            poison := fun _ => cvtPoison g r (n * fmtWidth sf / 32),
            vals := (List.range (n * fmtWidth df / 32)).map (fun j l =>
              BitVec.ofNat 32 (((List.range per).map (fun k => (cvtpElem g r l (j * per + k)).1 * 2 ^ (k * fmtWidth df))).sum)) } }]

/-! ## The lane-mask stack -/

/-- What a push answers (R74): with 64 entries it traps DIVSTACK, reason 1; with eight on chip the oldest goes to the stack area, at the
position that counts the entries there, and where that access faults it traps DIVSTACK, reason 2; else the chip holds it. -/
def PushHolds (s : State) (g : Group) (e : StackEntry) (cur : Mask) : Prop :=
  (64 ≤ g.depth → s.push g e cur = .error (.trap (trap0 18 1 cur))) ∧
  (g.depth < 64 → (g.isSup = true ∨ g.stack.length < 8) → s.push g e cur = .ok (s, { g with stack := e :: g.stack, depth := g.depth + 1 })) ∧
  ∀ old a, g.depth < 64 → g.isSup = false → g.stack.length = 8 → g.stack.getLast? = some old → s.stackArea g = some a →
    match s.ctx0Write (s.core g.core).part (a + BitVec.ofNat 64 (32 * g.spill)) old.bytes with
    | .ok t => s.push g e cur = .ok (t, { g with stack := e :: g.stack.dropLast, depth := g.depth + 1, spill := g.spill + 1 })
    | .error f => s.push g e cur = .error (.trap (trap64 18 (BitVec.ofNat 32 (2 + 256 * f.1)) f.2 cur))
/-- What a pop answers (R74): where the stack area holds entries, the one at the highest position comes back below those on chip. -/
def PopHolds (s : State) (g : Group) (cur : Mask) : Prop :=
  (g.spill = 0 → s.pop g cur = .ok { g with stack := g.stack.tail, depth := g.depth - 1 }) ∧
  ∀ a, g.spill ≠ 0 → s.stackArea g = some a →
    match s.ctx0Read (s.core g.core).part (a + BitVec.ofNat 64 (32 * (g.spill - 1))) 32 with
    | .ok l => s.pop g cur = .ok { g with stack := g.stack.tail ++ [stackEntryOf l], depth := g.depth - 1, spill := g.spill - 1 }
    | .error f => s.pop g cur = .error (.trap (trap64 18 (BitVec.ofNat 32 (2 + 256 * f.1)) f.2 cur))
/-- What Resolve answers in slot 0 (R81): the stack empty traps DIVSTACK, reason 4, with LIVE; a divided top is waited for; the pending side
of an IF and the lanes that wait at a LOOP run next; else the top is popped, and the lanes that entered it and still live go on behind its
end, or the entry below is looked at. -/
def ResolveHolds (s : State) (g : Group) (cur : Mask) : Prop :=
  ∀ fuel, (g.depth = 0 → s.resolveLoop (fuel + 1) g cur = .error (.trap (trap0 18 4 g.live))) ∧
  ∀ t rest, g.stack = t :: rest → 0 < g.depth → g.belowEntry 0 = false →
    (t.split = true → g.inEntry = false → s.resolveLoop (fuel + 1) g cur = .error (.wait s .splitTop)) ∧
    (t.split = false → t.pm ≠ 0 → (t.kind = 1 ∨ t.kind = 2) →
      s.resolveLoop (fuel + 1) g cur = .ok { g with stack := { t with pm := 0 } :: rest, mask0 := t.pm, pc0 := t.pc }) ∧
    (t.split = false → (t.pm = 0 ∨ (t.kind ≠ 1 ∧ t.kind ≠ 2)) → ∀ p, s.pop g cur = .ok p →
      (t.rm &&& g.live ≠ 0 → s.resolveLoop (fuel + 1) g cur = .ok { p with mask0 := t.rm &&& g.live, pc0 := t.epc + 8 }) ∧
      (t.rm &&& g.live = 0 → s.resolveLoop (fuel + 1) g cur = s.resolveLoop fuel { p with mask0 := 0 } cur))
/-- The word i empties slot 0's mask with the group h, and Resolve is part of it (R81): the group goes on where Resolve says, the word traps
with its trap, or it waits with it, without effect until then (R91). -/
def EndsResolved (i : Instr) (s : State) (g h : Group) : Prop :=
  (∀ q, s.resolveLoop 65 h g.mask0 = .ok q → exec i s = .next (s.setGroup s.cur.key (q.goTo false q.pc0))) ∧
  (∀ t, s.resolveLoop 65 h g.mask0 = .error (.trap t) → TrapsIn i s g t) ∧
  (s.resolveLoop 65 h g.mask0 = .error (.wait s .splitTop) → exec i s = .next (s.waitAt .splitTop))

/-! ## Memory words -/

/-- A core with room in its permission cache, whose pages are no smaller than a sector, with no failed write recorded, and nothing outstanding
on a link. -/
def Settled (s : State) (c : Nat) : Prop :=
  (s.core c).perm.length ≤ 400 ∧ (∀ e ∈ (s.core c).perm, 6 ≤ e.bits) ∧ (s.core c).deferred = [] ∧ s.requests = [] ∧
    ∃ k, aget? c s.cores = some k
/-- L1 and the read-only path hold nothing. -/
def EmptyCaches (k : Core) : Prop := k.l1 = [] ∧ k.l1Poison = [] ∧ k.l1Own = [] ∧ k.ro = [] ∧ k.roPoison = []
/-- No block maps a stash. -/
def NoStash (s : State) : Prop := ∀ e ∈ s.blocks, e.2.stash = []
/-- The group awaits no link. -/
def AwaitsNone (g : Group) : Prop := g.pend0 = none ∧ g.pend1 = none
/-- A settled core whose caches hold nothing, with no watchpoint; no block that maps a stash; and a group that awaits no link. -/
def Calm (s : State) (g : Group) : Prop :=
  EmptyCaches (s.core g.core) ∧ Settled s g.core ∧ (s.core g.core).comps = [] ∧ NoStash s ∧ AwaitsNone g
/-- The words of a group record that the group has at its allotment (R303). -/
def inRecord (g : Group) (n : Nat) : Prop := n < 704 + g.allot ∨ (960 ≤ n ∧ n < 1024 + 32 * g.allot)
/-- The value of word n of a group record (R314), where it is one field's: none for the words that pack several and for the stack area. -/
def recordWord (g : Group) (n : Nat) : Option Word :=
  if n < 32 then
    [some (lo32 g.pc0), some (hi32 g.pc0), some (lo32 g.pc1), some (hi32 g.pc1), some g.mask0, some g.mask1, some g.live, none,
      some g.fpflags, some g.fpmode, some g.arithmode, some (BitVec.ofNat 32 (g.ccopy % 65536 + 65536 * (g.cgath % 65536))),
      some (lo32 g.tmask), some (hi32 g.tmask), some (lo32 g.entrypc), some (hi32 g.entrypc), some (lo32 g.spc), some (hi32 g.spc),
      some g.smask, none, some (lo32 g.wake), some (hi32 g.wake), some (if g.hint then 1 else 0),
      some (BitVec.ofNat 32 g.trap.cause), some g.trap.w0, some g.trap.w1, some g.trap.w2, some g.trap.lanes, some (lo32 g.trapVpc),
      some (hi32 g.trapVpc), some (if g.trapSlot then 1 else 0), some g.trap.unfin].getD n none
  else if n < 64 then none
  else if n < 128 then some (g.getS (n - 64))
  else if n < 136 then none
  else if n < 138 then some (if n = 136 then lo32 g.sPoison else hi32 g.sPoison)
  else if n < 192 then some 0
  else if n < 704 then none
  else if n < 960 then some (g.poisonV (n - 704))
  else if n < 1024 then some 0
  else some (g.getV ((n - 1024) / 32) ((n - 1024) % 32))
/-- The writable words of a group record that are one field's (R303). -/
def vsWritable (n : Nat) : Prop :=
  n ≤ 5 ∨ n ∈ [8, 9, 10, 12, 13, 14, 15, 31] ∨ (64 ≤ n ∧ n < 128) ∨ n = 136 ∨ n = 137 ∨ (704 ≤ n ∧ n < 960) ∨ 1024 ≤ n
/-- What R145 answers to lanes of which some fail a check or meet a watchpoint, where none is misaligned: with a fault, the lanes that do
neither are performed, and the trap is MEMORY with the kind and the address of the lowest lane that fails, those lanes in TRAPLANES, and in
TRAPUNFIN the lanes that were not performed; with a watchpoint alone no lane is performed, and the trap is WATCH. -/
def StopsAt (t : Trap) (done m : Mask) (exempt wr : Bool) (addr : Nat → DWord) (fault watch : Nat → Option Nat) : Prop :=
  let f := maskOf (fun l => m.getLsbD l && (fault l).isSome)
  let wt := if exempt then 0 else maskOf (fun l => m.getLsbD l && (fault l).isNone && (watch l).isSome)
  let first := lowLane (if f ≠ 0 then f else wt)
  (f ≠ 0 ∨ wt ≠ 0) ∧ done = (if f ≠ 0 then m &&& ~~~(f ||| wt) else 0) ∧ t.cause = (if f ≠ 0 then 5 else 7) ∧
    t.w0 = BitVec.ofNat 32 ((((if f ≠ 0 then fault first else watch first)).getD 0) + 16 * first + (if wr then 512 else 0)) ∧
    pair t.w1 t.w2 = addr first ∧ t.lanes = (if f ≠ 0 then f else wt) ∧ t.unfin = (if f ≠ 0 then f ||| wt else m)
/-- The word i traps with t in the state u, in which its group is h (R7, R145). -/
def TrapsWith (i : Instr) (s u : State) (h : Group) (t : Trap) : Prop :=
  exec i s = .next (u.takeTrapAt s.cur.key h s.cur.slot1 (h.pc s.cur.slot1) t)
/-- The failed operation o surfaces at the word i (R208): the trap is ENGINE with its reason, class, slot, KIND, OWNER, FCODE, DONE and FADDR,
the trapping lanes are `lanes`, its slot is free, and its restart record stands in the group's header; no byte of memory changes. -/
def Surfaces (i : Instr) (s : State) (g : Group) (o : EngineOp) (lanes : Mask) : Prop :=
  ∃ u h, TrapsWith i s u h
      { cause := 11, w0 := BitVec.ofNat 32 (o.freason % 16 + (if o.gather then 16 else 0) + 32 * o.slot.getD 0 + 2 ^ 15 * o.kind +
          2 ^ 18 * (o.owner % 32) + 2 ^ 23 * (o.fcode % 256)),
        w1 := BitVec.ofNat 32 o.done, w2 := o.faddr.truncate 32, lanes, unfin := 0 } ∧
    u.mem = s.mem ∧ (∀ x ∈ (u.core g.core).ops, x.id = o.id → x.slot = none) ∧
    { h with failrec := g.failrec } = g ∧ ∀ k, k < 128 → aval 0 k h.failrec = o.bytes.getD k 0
/-- The lanes of m are unaligned for accesses of n bytes nowhere. -/
def AlignedAt (m : Mask) (n : Nat) (addr : Nat → Int) : Prop := ∀ l, l < 32 → m.getLsbD l = true → addr l % n = 0
/-- The fault kind of a lane's generic access (R144, R409). -/
def faultKind (s : State) (w : Who) (acc : Access) (va : DWord) : Option Nat :=
  match s.checkByte w acc va true with
  | .ok _ => none
  | .error k => some k
/-- Every ACTIVE lane's aligned access of n bytes passes the checks of R409 and reaches device memory at `pa l` by the entry `e l`; the
lanes of one page reach it by one entry, and those of one sector reach one sector. -/
def Reaches (s : State) (w : Who) (acc : Access) (atomOk : Bool) (m : Mask) (addr : Nat → DWord) (n : Nat) (e : Nat → PermEntry)
    (pa : Nat → Nat) : Prop :=
  ∀ l, l < 32 → m.getLsbD l = true → s.checkByte w acc (addr l) atomOk = .ok (e l, .dev (pa l)) ∧ (addr l).toNat % n = 0 ∧
    pa l % 64 = va57 (addr l) % 64 ∧ ∀ k, k < 32 → m.getLsbD k = true →
      (va57 (addr k) / 2 ^ (e l).bits = va57 (addr l) / 2 ^ (e l).bits → e k = e l) ∧
      (va57 (addr k) / 64 = va57 (addr l) / 64 → pa k + va57 (addr l) = pa l + va57 (addr k))
/-- Each of the n generic bytes from va passes its check by one entry, of no stripe, and stands in device memory, in order from pa. -/
def RunAt (s : State) (w : Who) (acc : Access) (atomOk : Bool) (va : DWord) (n : Nat) (e : PermEntry) (pa : Nat) : Prop :=
  e.stripe = none ∧ pa % 64 = va57 va % 64 ∧ ∀ k, k < n → va57 (va + BitVec.ofNat 64 k) = va57 va + k ∧
    s.checkByte w acc (va + BitVec.ofNat 64 k) atomOk = .ok (e, .dev (pa + k))
/-- Byte x of a block's local area. -/
def localByte (b : Block) (x : Nat) : Byte := aval 0 x b.loc
/-- The local area of block bn is that of b but for n bytes from d, which are those of f; memory is as it was. -/
def LocalTook (s t : State) (bn : Nat) (b : Block) (d n : Nat) (f : Nat → Byte) : Prop :=
  t.mem = s.mem ∧ ∃ b', aget? bn t.blocks = some b' ∧
    ∀ x, localByte b' x = if d ≤ x ∧ x < d + n then f (x - d) else localByte b x
/-- Memory is as it was but for n bytes from pa, which are those of f. -/
def MemTook (s t : State) (pa n : Nat) (f : Nat → Byte) : Prop :=
  ∀ x, t.readPhys x = if pa ≤ x ∧ x < pa + n then f (x - pa) else s.readPhys x
/-- What RoundTo gives for the finite value ±m × 2^e (R109), where it does not overflow: the format's value nearest to it under RN, of two
as near the one whose encoding is even; toward 0 the largest in magnitude that is not above it, away from 0 the least that is not below it;
inexact where it differs. K scales every magnitude to an integer. -/
def RoundsRight (f : Fmt) (neg : Bool) (m : Nat) (e : Int) : Prop :=
  ∀ rm rb x fl, roundTo f (.fin neg m e false) rm false rb = (x, fl) → fl &&& fOF = 0 → rm ≤ 3 →
  ∃ n q, f.dec x = .fin neg n q false ∧ ∀ K : Nat, 0 ≤ e + K → 0 ≤ q + K →
    let v : Int := m * 2 ^ (e + K).toNat
    let r : Int := n * 2 ^ (q + K).toNat
    (fl &&& fNX = 0 ↔ r = v) ∧
    ∀ y n' q', y < 2 ^ f.width → f.dec y = .fin neg n' q' false → 0 ≤ q' + K →
      let u : Int := n' * 2 ^ (q' + K).toNat
      (rm = 0 → (v - r).natAbs ≤ (v - u).natAbs ∧ ((v - r).natAbs = (v - u).natAbs → u ≠ r → x % 2 = 0)) ∧
      (rm = 1 ∨ (rm = 2 ∧ neg = false) ∨ (rm = 3 ∧ neg = true) → r ≤ v ∧ (u ≤ v → u ≤ r)) ∧
      ((rm = 2 ∧ neg = true) ∨ (rm = 3 ∧ neg = false) → v ≤ r ∧ (v ≤ u → r ≤ u))
/-- RoundTo rounds every value to the six formats so (R109): a value that overflows lies above every finite value and gives, under RN, the
infinity, or the canonical NaN of the format that has none; a magnitude of which only enough leading digits are known is rounded as the
value itself would be. -/
def RoundingHolds : Prop :=
  ∀ f ∈ [f64, f32, f16, bf16, e4m3, e5m2], ∀ neg (m : Nat) (e : Int), m ≠ 0 →
    RoundsRight f neg m e ∧
    (∀ rb x fl, roundTo f (.fin neg m e false) 0 false rb = (x, fl) → fl &&& fOF ≠ 0 → x = f.inf neg ∧
      ∀ y n' q' (K : Nat), y < 2 ^ f.width → f.dec y = .fin neg n' q' false → 0 ≤ e + K → 0 ≤ q' + K →
        n' * 2 ^ (q' + K).toNat < m * 2 ^ (e + K).toNat) ∧
    ∀ rm rb sat (a j : Nat), rm ≤ 3 → 2 ^ (f.mw + 1) ≤ m → m * 2 ^ j < a → a < (m + 1) * 2 ^ j →
      roundTo f (.fin neg m e true) rm sat rb = roundTo f (.fin neg a (e - j) false) rm sat rb
/-- Register j of the run that n loaded bytes land in (R148, R149): one or two bytes extended to a register, else four bytes a
register, the lowest address in the low byte. -/
def landed (n : Nat) (sx : Bool) (b : Nat → Byte) (j : Nat) : Word :=
  if n = 1 then (if sx then (b 0).signExtend 32 else (b 0).zeroExtend 32)
  else if n = 2 then (if sx then (b 1 ++ b 0 : BitVec 16).signExtend 32 else (b 1 ++ b 0 : BitVec 16).zeroExtend 32)
  else b (4 * j + 3) ++ b (4 * j + 2) ++ b (4 * j + 1) ++ b (4 * j)
/-- The registers of a run of n bytes. -/
def runRegs (n : Nat) : Nat := max 1 (n / 4)
/-- Byte k of the run of registers from b of lane l (R149). -/
def runByte (g : Group) (b l k : Nat) : Byte := (g.getV (b + k / 4) l).extractLsb' (8 * (k % 4)) 8
/-- The highest ACTIVE lane whose n bytes from `addr l` hold byte a: lanes act in ascending order, so it is the last to write. -/
def lastLane (m : Mask) (addr : Nat → Nat) (n a : Nat) : Option Nat :=
  (Mask.toLanes m).reverse.find? (fun l => addr l ≤ a && a < addr l + n)
/-- Every ACTIVE lane's n bytes lie in the local area of block b, aligned (R135, R145). -/
def InLocal (b : Block) (g : Group) (m : Mask) (r : MWord) : Prop :=
  ∀ l, l < 32 → m.getLsbD l = true → 0 ≤ scrAddr g r l ∧ scrAddr g r l + accSize r ≤ b.localSize ∧ scrAddr g r l % accSize r = 0
/-- The atomics of the scratchpad and what each does (R171, R172). -/
def scratchAtomics (r : MWord) : List (Instr × AtomAct) :=
  [(.atomsAdd r, .comb .add), (.atomsMin r, .comb .min), (.atomsMax r, .comb .max), (.atomsAnd r, .comb .and),
   (.atomsOr r, .comb .or), (.atomsXor r, .comb .xor), (.atomsExch r, .comb .exch), (.cass r, .cas)]
/-- The atomics of generic memory that give the old value. -/
def returningAtomics (r : MWord) : List (Instr × AtomAct) :=
  [(.atomAdd r, .comb .add), (.atomMin r, .comb .min), (.atomMax r, .comb .max), (.atomAnd r, .comb .and),
   (.atomOr r, .comb .or), (.atomXor r, .comb .xor), (.atomExch r, .comb .exch), (.cas r, .cas)]
/-- The reductions, which give none. -/
def reductions (r : MWord) : List (Instr × AtomAct) :=
  [(.redAdd r, .comb .add), (.redMin r, .comb .min), (.redMax r, .comb .max), (.redAnd r, .comb .and), (.redOr r, .comb .or),
   (.redXor r, .comb .xor)]
/-- The n bytes that an atomic leaves of n old bytes in lane l (R171, R172): the combination, or the swap where the comparison holds. -/
def atomBytes (a : AtomAct) (g : Group) (r : MWord) (l : Nat) (old : List Byte) : List Byte :=
  let n := accSize r
  let operand (reg : Nat) : List Byte := (List.range n).map (fun k => runByte g reg l k)
  match a with
  | .comb op => leBytes (combine op (atomTy r) (8 * n) (leNat old) (leNat (operand r.b.toNat))) n
  | .cas => if old = operand r.b.toNat then operand (r.b.toNat + n / 4) else old
/-- An atomic performed by the lanes of a list, one after another, on bytes at `addr` (R172): the bytes that it leaves, and each lane's
old bytes. -/
def atomSeq (a : AtomAct) (g : Group) (r : MWord) (addr : Nat → Nat) (lanes : List Nat) (mem : Nat → Byte) :
    (Nat → Byte) × (Nat → List Byte) :=
  match lanes with
  | [] => (mem, fun _ => [])
  | l :: t =>
    let n := accSize r
    let old := (List.range n).map (fun k => mem (addr l + k))
    let new := atomBytes a g r l old
    let q := atomSeq a g r addr t (fun x => if addr l ≤ x ∧ x < addr l + n then new.getD (x - addr l) 0 else mem x)
    (q.1, fun k => if k = l then old else q.2 k)
/-- The next state t of a word that changes its group to h and no other group. -/
def OnlyGroup (s t : State) (h : Group) : Prop :=
  t.group? s.cur.key = some h ∧ ∀ k, k ≠ s.cur.key → t.group? k = s.group? k
/-- What a load writes (R149): in each lane of the mask the run from d takes the bytes of `b`, poisoned in the lanes of `bad`. -/
def runWrites (d n : Nat) (sx : Bool) (b : Nat → Nat → Byte) (bad : Nat → Bool) : Writes :=
  { d, vals := (List.range (runRegs n)).map (fun j l => landed n sx (b l) j), poison := fun _ => maskOf bad }
/-- The run from d of the lanes of m takes the bytes of `b` (R149); the group goes on, and nothing else of it changes. -/
def Loads (slot1 : Bool) (m : Mask) (d n : Nat) (sx : Bool) (b : Nat → Nat → Byte) (bad : Nat → Bool) (g h : Group) : Prop :=
  h.pc slot1 = g.pc slot1 + 8 ∧ KeptRest slot1 g h ∧ Wrote slot1 m (runWrites d n sx b bad) g h

/-! ## The step -/

/-- The machine at the point where a quarter of a core chooses, in a cycle that neither a debug stop, a fenced core nor a withheld
section takes (R258, R358, R393). -/
def atChoice (s : State) (c q : Nat) : State :=
  (if q = 0 then s.modCore c (fun k => { k with svIssued := false }) else s).countCycle c q false
/-- The rotation token passes on where the cycle is given to rules 3 and 4 (R259). -/
def rotated (s : State) (c q : Nat) (rotate : Bool) : State :=
  if rotate then s.modCore c (fun k => { k with tokens := aset 0 q ((aval 0 q k.tokens + 1) % 32) k.tokens }) else s
/-- The supervisor's issue is noted (R258), and the chosen slot is the one that issues. -/
def issuing (s : State) (c key : Nat) (slot1 : Bool) : State :=
  { (if key = c then s.modCore c (fun k => { k with svIssued := true }) else s) with cur := { key, slot1 } }
/-- The stall that a miss of the issuing slot costs its quarter, after the slot's word (DESIGN CHOICE, log 10). -/
def charged (s : State) (c q key : Nat) (slot1 : Bool) (o : Out State) : Out State :=
  match o with
  | .next t => .next (s.chargeMiss c q key slot1 t)
  | .fault f => .fault f
  | .refused r => .refused r
/-- A quarter of core c may choose in s: the core runs, no debug stop covers it and its section is not withheld. -/
def MayChoose (s : State) (c : Nat) : Prop :=
  s.gated c = false ∧ (s.core c).enabled = true ∧ (s.core c).fenced = false ∧ s.throttled.contains (c / 12) = false
/-- The step from s makes the move m in s1: no debug stop falls due, and m heads the agenda, or the agenda is empty, nothing is due and m
is the cycle of the quarter whose turn it is (DESIGN CHOICE, log 7). -/
def Moves (s : State) (m : Move) (s1 : State) : Prop :=
  s.stopDue = none ∧
    ((∃ rest, s.agenda = m :: rest ∧ s1 = { s with agenda := rest }) ∨
     (s.agenda = [] ∧ s.due = none ∧ m = .cycle (s.turn / 4) (s.turn % 4) ∧ s1 = { s with turn := (s.turn + 1) % 576 }))
/-- The time after a step from s (R10). -/
def later (s : State) (o : Out State) : Out State :=
  match o with
  | .next t => .next (t.elapse (s.turn == 575 && t.turn == 0))
  | .fault f => .fault f
  | .refused r => .refused r
/-- The wait for the code of a word is over as the word comes (R346). -/
def loweredBy (s : State) (key : Nat) (g : Group) : State :=
  if g.wait = .lower then s.modGroup key (fun g => { g with wait := .none }) else s

/-- What MOVS reads (R101): the tick as a pair, the lane number, or a uniform special register. -/
def movsVals (s : State) (g : Group) (r : RWord) : List (Nat → Word) :=
  if xbit r 1 then [fun _ => lo32 s.tick, fun _ => hi32 s.tick]
  else [fun l => if r.a = 0 then BitVec.ofNat 32 l else specialReg s g r.a.toNat]
end Sys2Proof.Claims

open Sys2Proof Sys2Proof.Machine Sys2Proof.Claims

/-! ## Decoding and the step -/

/-- Words written out from the forms of R28, R33, R40 to R44 and the codes of R49 and R47 decode to the instructions they stand for:
IADD, MOVI, LD, BRA, ATOM.ADD, FADD, a pair word of MOV and IADD, and the retired VOTEX. -/
def Obligations.DecodeOfWrittenWords : Prop :=
  decodeWord 0b0_000100000_111_0_00000010_00000011_00000001_00000000_000000000_010000000#64 =
    .iadd { pg := 7, pn := false, d := 2, a := 3, b := 1, c := 0, ua := false, ub := false, uc := false, na := false, aa := false,
            nb := false, ab := false, nc := false, ac := false, xop := 0x080 } ∧
  decodeWord 0b0_001000101_111_0_00000100_00000000_01_11011110101011011011111011101111#64 =
    .movi { pg := 7, pn := false, d := 4, a := 0, im := 1, imm := 0xDEADBEEF } ∧
  decodeWord 0b0_010110000_111_0_00000100_00000010_00000000_11_00_010_00_0_0000000000001000#64 =
    .ld { pg := 7, pn := false, d := 4, a := 2, b := 0, sc := 3, ord := 0, sz := 2, cp := 0, au := false, off := 8 } ∧
  decodeWord 0b0_000000010_111_0_111111111111111111111110_000_00000000_000000000000000#64 =
    .bra { pg := 7, pn := false, tgt := 0xFFFFFE, bop := 0 } ∧
  decodeWord 0b0_011100000_111_0_00000100_00000010_00000110_10_00_010_00_0_0000000000000000#64 =
    .atomAdd { pg := 7, pn := false, d := 4, a := 2, b := 6, sc := 2, ord := 0, sz := 2, cp := 0, au := false, off := 0 } ∧
  decodeWord 0b0_001100000_011_1_00000101_00000110_00000111_00000000_000000000_000000000#64 =
    .fadd { pg := 3, pn := true, d := 5, a := 6, b := 7, c := 0, ua := false, ub := false, uc := false, na := false, aa := false,
            nb := false, ab := false, nc := false, ac := false, xop := 0 } ∧
  decodeWord 0b1_0_000000_00000010_00000100_100000101_000001_00000011_00000101_100000111#64 =
    .pairWord { h0 := { op := .mov, d := 2, a := 4, m9 := 0x105 }, h1 := { op := .iadd, d := 3, a := 5, m9 := 0x107 } } ∧
  decodeWord 0b0_111001000_111_0_00000000_00000000_00000000_00000000_000000000_000000000#64 = .votex bareR

/-- Decode and encode agree (R28 to R59): the word of every well-formed instruction, with every operand at every value that its fields
admit, decodes to that instruction, or where the rows of a code differ only in the values of operand registers, to the first row of its
code; every instruction of the table that is a word has one. -/
def Obligations.DecodeOfEncode : Prop :=
  (∀ i w, WellFormed i → encode i = some w → decodeWord w = canon i) ∧
    ∀ i, ((opcodeOf i).isSome = true ∨ ∃ p, i = .pairWord p) → (encode i).isSome = true

/-- No bit of a word is dropped (R28, R33, R40 to R44): every word is the word of the instruction that it decodes to, an ILLEGAL_WORD
included. -/
def Obligations.EncodeOfDecode : Prop := ∀ w, encode (decodeWord w) = some w

/-- A step runs the decoded instruction (R5, R10, R56, R258; that one move is a step is the model's own: DESIGN CHOICE, log 7): where the
move is a cycle of a quarter, the quarter's choice is a slot that has lanes, the fetch brings a word and no breakpoint stops it, the step is
the meaning of the instruction that the word decodes to, in the machine as the choice and the fetch leave it, with the slot as `cur`, and
then the stall of a miss is counted (DESIGN CHOICE, log 10) and time passes; a fetch that traps and a breakpoint are the slot's trap (R348,
R362), no breakpoint stops slot 1 at a word before which it stops (R82), and code that a link must bring is asked for (R344). Where the move is an event that no debug stop
holds, the step is the event's meaning. -/
def Obligations.StepRunsDecoded : Prop :=
  (∀ s c q s1 key slot1 rotate g, Moves s (.cycle c q) s1 → MayChoose s1 c →
    let s2 := rotated (atChoice s1 c q) c q rotate
    let s3 := issuing s2 c key slot1
    let ends (o : Out State) : Prop := step s = later s (charged s2 c q key slot1 o)
    (atChoice s1 c q).pick c q = (.issue key slot1, rotate) → s3.group? key = some g → g.mask slot1 ≠ 0 →
    (∀ s4 t, s3.fetch g slot1 = .trap s4 t → ends (.next (s4.takeTrapAt key g slot1 (g.pc slot1) t))) ∧
    (∀ s4 f, s3.fetch g slot1 = .miss s4 f → ends (.next (s4.requestCode key g slot1 f))) ∧
    ∀ s4 w, s3.fetch g slot1 = .word s4 w →
      let stops := slot1 = true ∧ stopsSlot1 w = true
      (stops ∨ s4.breakAt (s4.whoGroup g) (g.skipBreak slot1) (g.pc slot1) = none →
        ends (exec (decodeWord w) (loweredBy s4 key g))) ∧
      ∀ n, ¬ stops → s4.breakAt (s4.whoGroup g) (g.skipBreak slot1) (g.pc slot1) = some n →
        ends (.next (s4.takeTrapAt key g slot1 (g.pc slot1)
          (trap0 8 (BitVec.ofNat 32 (2 ^ 16 + 2 ^ 17 * n)) (g.mask slot1))))) ∧
  ∀ s i s1, Moves s (.event i) s1 → s1.barred i = false → step s = later s (exec i s1)

/-! ## Invariants and reset -/

/-- Every step keeps the canonical form of memory: addresses strictly rising, and no entry that equals what an unlisted address reads
as (DESIGN CHOICE, log 1). -/
def Obligations.StepKeepsMemoryForm : Prop := ∀ s t, Memory.wf s.mem → step s = .next t → Memory.wf t.mem

/-- Memory after reset has the canonical form (DESIGN CHOICE, log 1). -/
def Obligations.ResetMemoryForm : Prop := Memory.wf State.reset.mem

/-- After reset (R289) every core has NEST, SEPC, SVEC and SCAUSE at 0, empty mooring queues, notice lists and caches, and its
supervisor group, where it has one, has every register at 0, slot 0 at the entry that the model's firmware image names (DESIGN CHOICE, log 2) with lane
0 live; every partition's LINKTMO is 100, the tick is 0, and no device context is resident. -/
def Obligations.ResetState : Prop :=
  (∀ c, c < 144 → ∃ k, aget? c State.reset.cores = some k ∧ k.nest = false ∧ k.sepc = 0 ∧ k.svec = 0 ∧ k.scause = 0 ∧ k.mq = [] ∧
    k.notices = [] ∧ k.l1 = [] ∧ k.perm = [] ∧ k.ops = []) ∧
  (∀ c g, State.reset.group? c = some g → g.isSup = true ∧ g.core = c ∧ (∀ r l, g.getV r l = 0) ∧ (∀ r, g.getS r = 0) ∧
    (∀ p, p < 7 → g.getP p = 0) ∧ g.pc0 = Config.firmwareEntry ∧ g.mask0 = 1 ∧ g.live = 1 ∧ g.run1 = false ∧ g.depth = 0) ∧
  (∀ p, p < State.reset.parts.length → (State.reset.part p).linktmo = 100) ∧
  State.reset.tick = 0 ∧ State.reset.blocks = [] ∧ State.reset.grids = []

/-! ## Traps -/

/-- A privileged word that a user group reaches traps PRIVILEGE whatever ACTIVE is, with the current lane mask in TRAPLANES, its OP in W0
and the word in W1:W2; every other word is usable in user mode, so no check of its issue traps PRIVILEGE; the privileged codes are the
rows of the table that say Yes (R50, R295). -/
def Obligations.PrivilegeTrap : Prop :=
  (∀ i s g, s.group? s.cur.key = some g → g.isSup = false → (encode i).isSome = true → (wordOf i).getLsbD 63 = false →
    privileged (opField (wordOf i)) = true → s.cur.slot1 = false →
    TrapsIn i s g (trap64 3 (BitVec.ofNat 32 (opField (wordOf i))) (wordOf i) g.mask0)) ∧
  (∀ i g slot1 bad runs t, ((wordOf i).getLsbD 63 = true ∨ privileged (opField (wordOf i)) = false) →
    decodeChecks i g slot1 bad runs = some t → t.cause ≠ 3) ∧
  ∀ op, privileged op = true ↔ ((0x164 ≤ op ∧ op ≤ 0x16D) ∨ (0x16F ≤ op ∧ op ≤ 0x173))

/-- A trap that the supervisor group raises does not park it (R288): SCAUSE, SDETAIL and SEPC take the cause, the detail and the trapping
PC, NEST is set, and the PC becomes SVEC; memory, every other group and every other core are as they were. Under NEST, or with SVEC = 0, it
is a double fault, and the core is fenced. SRET ends a supervisor trap (R305): PC takes SEPC and NEST 0, and nothing else of any core, no
byte of memory and no other group changes. -/
def Obligations.SupervisorTrap : Prop :=
  (∀ (s : State) key g k slot1 vpc t, g.isSup = true → aget? g.core s.cores = some k →
  (k.nest = false → k.svec ≠ 0 →
    let u := s.takeTrapAt key g slot1 vpc t
    u.core g.core = { k with scause := t.cause, sdetail := (t.w0, t.w1, t.w2), sepc := vpc, nest := true } ∧
      (∀ c, c ≠ g.core → aget? c u.cores = aget? c s.cores) ∧
      u.group? key = some { g with pc0 := k.svec, wait := .none, young := false, retry0 := Retry.none, pend0 := none } ∧ (∀ x, x ≠ key → u.group? x = s.group? x) ∧
      u.mem = s.mem ∧ u.blocks = s.blocks) ∧
  ((k.nest = true ∨ k.svec = 0) → ((s.takeTrapAt key g slot1 vpc t).core g.core).fenced = true)) ∧
  ∀ s g m (r : RWord) k, IssuesWith (.sret r) s g m (if g.isSup && !(s.core g.core).nest then [5] else []) [] → m ≠ 0 →
    aget? g.core s.cores = some k →
  ∃ t h, exec (.sret r) s = .next t ∧ t.mem = s.mem ∧ OnlyGroup s t h ∧ h.pc0 = k.sepc ∧ t.core g.core = { k with nest := false } ∧
    (∀ c, c ≠ g.core → t.core c = s.core c) ∧ h.v = g.v ∧ h.s = g.s ∧ h.p = g.p

/-- A trap parks a user group (R7, R85, R291): the group keeps its registers, predicates, lanes, stack and both slots' PCs, and holds the
cause, the detail and the lanes of the trap, the virtual PC and the slot; where a mooring entry is free it takes one, and where none is it
stalls in place. Memory and every other group are as they were. -/
def Obligations.UserTrapParks : Prop :=
  ∀ (s : State) key g k slot1 vpc t, g.isSup = false → aget? g.core s.cores = some k →
  let u := s.takeTrapAt key g slot1 vpc t
  ∃ h, u.group? key = some h ∧ h.trap = t ∧ h.trapVpc = vpc ∧ h.trapSlot = slot1 ∧ h.parked = true ∧ h.state = .moored ∧
    h.v = g.v ∧ h.s = g.s ∧ h.p = g.p ∧ h.live = g.live ∧ h.mask0 = g.mask0 ∧ h.mask1 = g.mask1 ∧ h.pc0 = g.pc0 ∧ h.pc1 = g.pc1 ∧
    h.run1 = g.run1 ∧ h.held = g.held ∧ h.stack = g.stack ∧ h.depth = g.depth ∧ h.allot = g.allot ∧
    (∀ x, x ≠ key → u.group? x = s.group? x) ∧ u.mem = s.mem ∧ u.blocks = s.blocks ∧
    (k.mq.length < 128 → (u.core g.core).mq.length = k.mq.length + 1 ∧
      ∃ place e, aget? place (u.core g.core).mq = some e ∧ aget? place k.mq = none ∧ e.kind = 1 ∧ e.key = key ∧ e.popped = false)

/-- The traps of a word's own registers and values, shown on words of each class: a register beyond the allotment traps REGBOUND with the
highest such register and the first field that names it, even if ACTIVE is empty (R30); a division by zero and a raised flag trap ARITH
where they are enabled (R97, R113); a comparison of a poisoned register traps POISON (R94); a misaligned lane traps ALIGN before any lane's
page is looked at (R145).
Of aligned lanes of LD and ST that fail a check or meet a watchpoint, the rest is performed (R145) and the trap is MEMORY or WATCH with
the kind and the address of the lowest; out of the scratchpad, LDS and STS do the same with kind SCRBOUND (R144, R145, R409). Lanes of LD
whose sector a link has failed trap REMOTE behind the others, and are left to the word (R146, R173). A release of system scope behind failed
writes of its context traps DEFERRED with their number and the oldest's address and kind, and clears them (R186). -/
def Obligations.OperandTraps : Prop :=
  (∀ s g m (r : RWord) (q : MWord),
  (s.group? s.cur.key = some g → s.cur.slot1 = false → g.inEntry = false → r.ua = false → r.ub = false → xbit r 0 = false →
    (g.isSup = true → supForbidden (opField (wordOf (.iadd r))) = false) →
    ∀ top, top = max r.d.toNat (max r.a.toNat r.b.toNat) → g.allot ≤ top →
    TrapsIn (.iadd r) s g (trap0 10 (BitVec.ofNat 32 ((if r.d.toNat = top then 0 else if r.a.toNat = top then 2 else 4) + 256 * top +
      2 ^ 24 * (g.allot / 8))) g.mask0)) ∧
  (Issues (.idiv r) s g m → g.arithmode.getLsbD 1 = true → xbit r 0 = false →
    let z := maskOf (fun l => m.getLsbD l && opB g r l == 0)
    z ≠ 0 → TrapsIn (.idiv r) s g (trap0 9 32 z)) ∧
  (Issues (.fadd r) s g m → fpUd r = false →
    let f (l : Nat) : Flags := (fpFinish f32 r (exAdd (rmOf r) (f32.dec (encA f32 g r l)) (f32.dec (encB f32 g r l)))).2
    let t := maskOf (fun l => m.getLsbD l && (f l &&& g.fpmode.truncate 5) != 0)
    t ≠ 0 → TrapsIn (.fadd r) s g (trap0 9 ((orFlagsOf t f).zeroExtend 32) t)) ∧
  (Issues (.icmp r) s g m → let bad := (g.srcPoison r.a.toNat 1 r.ua ||| g.srcPoison r.b.toNat 1 r.ub) &&& m
    bad ≠ 0 → ∃ t, TrapsIn (.icmp r) s g t ∧ t.cause = 14 ∧ t.w0.toNat % 16 = 3 ∧ t.lanes = bad) ∧
  (Issues (.ld q) s g m → q.sz.toNat ≤ 5 → g.consume 4 m [(q.a.toNat, 2, q.au)] = .ok () → q.au = false →
    let al := maskOf (fun l => m.getLsbD l && decide ((genAddr g q l).toNat % accSize q ≠ 0))
    al ≠ 0 → ∃ t, TrapsIn (.ld q) s g t ∧ t.cause = 6 ∧ t.lanes = al ∧ pair t.w1 t.w2 = genAddr g q (lowLane al))) ∧
  (∀ s g m (r : MWord) e pa done t, EmptyCaches (s.core g.core) → Settled s g.core → NoStash s → r.sz.toNat ≤ 5 →
    g.consume 4 m [(r.a.toNat, 2, r.au)] = .ok () → AlignedAt m (accSize r) (fun l => ((genAddr g r l).toNat : Int)) →
    let n := accSize r
    let w := s.whoGroup g
    let addr := genAddr g r
    let slot1 := s.cur.slot1
    let lands (done : Mask) (u : State) (h : Group) : Prop := u.mem = s.mem ∧ OnlyGroup s u h ∧ h.pc slot1 = g.pc slot1 ∧ KeptRest slot1 g h ∧
      Wrote slot1 done (runWrites r.d.toNat n (loadSx r) (fun l k => s.readPhys (pa l + k)) (fun l => s.memPoison.contains (pa l / 64))) g h
    (AwaitsNone g → Reaches s w .read true done addr n e pa → Issues (.ld r) s g m →
      StopsAt t done m (g.skipWatch slot1) false addr (fun l => faultKind s w .read (addr l))
        (fun l => s.watchHit g.core w.asid l (addr l) n true false) →
      ∃ u h, TrapsWith (.ld r) s u h t ∧ lands done u h) ∧
    (AwaitsNone g → Reaches s w .write true done addr n e pa → Issues (.st r) s g m → r.cp ≠ 3 → r.ord ≠ 2 →
      (∀ l, l < 32 → done.getLsbD l = true → (e l).c = true) →
      StopsAt t done m (g.skipWatch slot1) true addr (fun l => faultKind s w .write (addr l))
        (fun l => s.watchHit g.core w.asid l (addr l) n false true) →
      ∃ u, TrapsWith (.st r) s u g t ∧ u.mem = s.mem ∧ OnlyGroup s u g ∧
        ∀ q, aget? q (u.core g.core).l1 = (lastLane done (fun l => lkey w.asid (va57 (addr l))) n q).map (fun l =>
          (runByte g r.b.toNat l (q - lkey w.asid (va57 (addr l))), true))) ∧
    ∀ p, g.pendOf slot1 = some p → p.waiting = [] → (s.core g.core).comps = [] →
      let failed (l : Nat) : Option Nat := aget? (va57 (addr l) / 64) p.fails
      let bad := maskOf (fun l => m.getLsbD l && (failed l).isSome)
      bad ≠ 0 → done = m &&& ~~~bad → Reaches s w .read true done addr n e pa → Issues (.ld r) s g m →
      ∃ u h, TrapsWith (.ld r) s u h (trap64 12 (BitVec.ofNat 32 ((failed (lowLane bad)).getD 0)) (addr (lowLane bad)) bad) ∧
        h.redo slot1 = some bad ∧ ∃ h0, h = h0.setRedo slot1 bad ∧ u.mem = s.mem ∧ (∀ k, k ≠ s.cur.key → u.group? k = s.group? k) ∧
        h0.pc slot1 = g.pc slot1 ∧ KeptRest slot1 g h0 ∧ Wrote slot1 done
          (runWrites r.d.toNat n (loadSx r) (fun l k => s.readPhys (pa l + k)) (fun l => s.memPoison.contains (pa l / 64))) g h0) ∧
  (∀ s g m (r : MWord) bn b done t, g.blk = some bn → aget? bn s.blocks = some b → r.sz.toNat ≤ 5 →
    g.consume 4 m [(r.a.toNat, 1, r.au)] = .ok () → AlignedAt m (accSize r) (scrAddr g r) →
    let n := accSize r
    let slot1 := s.cur.slot1
    let out (l : Nat) : Bool := scrAddr g r l < 0 || (b.localSize + b.stashSize : Int) < scrAddr g r l + n
    (∀ l, l < 32 → m.getLsbD l = true → out l = true ∨ (0 ≤ scrAddr g r l ∧ scrAddr g r l + n ≤ b.localSize)) →
    let stops (wr : Bool) : Prop := StopsAt t done m (g.skipWatch slot1) wr (fun l => BitVec.ofInt 64 (scrAddr g r l))
      (fun l => if out l then some 6 else none) (fun _ => none)
    (Issues (.lds r) s g m → stops false → ∃ h, TrapsWith (.lds r) s (s.setGroup s.cur.key h) h t ∧ h.pc slot1 = g.pc slot1 ∧
      KeptRest slot1 g h ∧ Wrote slot1 done (runWrites r.d.toNat n (loadSx r) (fun l k => aval 0 ((scrAddr g r l).toNat + k) b.loc)
        (fun l => (sectorsOf (scrAddr g r l).toNat n).any (fun q => b.locPoison.contains q))) g h) ∧
    (Issues (.sts r) s g m → stops true → ∃ u b', TrapsWith (.sts r) s u g t ∧ u.mem = s.mem ∧ OnlyGroup s u g ∧
      aget? bn u.blocks = some b' ∧ { b' with loc := b.loc, locPoison := b.locPoison } = b ∧
      ∀ x, aval 0 x b'.loc = match lastLane done (fun l => (scrAddr g r l).toNat) n x with
        | some l => runByte g r.b.toNat l (x - (scrAddr g r l).toNat)
        | none => aval 0 x b.loc)) ∧
  ∀ s g m (r : RWord) d, Issues (.fence r) s g m → m ≠ 0 → xf r 0 2 = 3 → xbit r 3 = true → (s.core g.core).l1 = [] → s.requests = [] →
    let ctx := (s.whoGroup g).ctxid
    aget? ctx.toNat (s.core g.core).deferred = some d →
    TrapsWith (.fence r) s (s.modCore g.core (fun k => { k with deferred := adel ctx.toNat k.deferred })) g
      (trap64 13 (BitVec.ofNat 32 (d.kind + 256 * min d.count (2 ^ 24 - 1))) d.addr (g.mask s.cur.slot1))

/-- An exact result is narrowed in one of two ways (R93): without SAT it is the value modulo 2^w; with SAT it is the value clamped to
[-2^(w-1), 2^(w-1) - 1] under .s, or to [0, 2^w - 1] under .n. -/
def Obligations.Narrowing : Prop :=
  ∀ (w : Nat) (x : Int) (b : Bool), 0 < w →
  ((narrow w false b x).toNat : Int) = x % 2 ^ w ∧
  (narrow w true true x).toInt = max (-2 ^ (w - 1)) (min x (2 ^ (w - 1) - 1)) ∧
  ((narrow w true false x).toNat : Int) = max 0 (min x (2 ^ w - 1))

/-! ## Words that act on registers -/

/-- The arithmetic words complete, and write exactly these values, poison and nothing else (R96, R97). -/
def Obligations.ArithmeticWords : Prop := ∀ s g m r q, TableHolds s g m (arithTable g m r q)

/-- The words of comparison, selection, logic and bits (R98). -/
def Obligations.LogicWords : Prop := ∀ s g m r q, TableHolds s g m (logicTable g m r q)

/-- The words that move, form addresses and compute at 64 bits (R99, R102). -/
def Obligations.MoveWords : Prop := ∀ s g m r q, TableHolds s g m (moveTable g m r q)

/-- The words that exchange between lanes and form predicates (R103), and NOP (R88), complete with exactly what their rows write.
MOVS writes the special register that A names, the tick or the lane number, unpoisoned, and nothing else of its group (R101). MOVWX writes in
each ACTIVE lane the one register that its index names, with A's poison, and no other register (R102). V2P writes bit k of A into p0 to p6 of
each ACTIVE lane, and nothing else (R103). FSETM and CLRF give the register's old value, unpoisoned, in the uniform register D and change it
by A and C (R132, R133); no other part of the group changes. -/
def Obligations.ExchangeAndSpecialWords : Prop :=
  (∀ s g m r, TableHolds s g m (exchangeTable g (g.mask s.cur.slot1) m r)) ∧
  ∀ s g m r,
  let slot1 := s.cur.slot1
  (Issues (.movs r) s g m →
    CompletesFrom (.movs r) s (if m = 0 then s else s.takeFree 1) g m { ud := xbit r 0, d := r.d.toNat, vals := movsVals s g r }) ∧
  (∀ i ∈ [Instr.fsetm r, .clrf r], Issues i s g m → m = 0 → Completes i s g m {}) ∧
  (Issues (.movwx r) s g m → g.consume 1 m [(r.b.toNat, 1, r.ub)] = .ok () →
    (∀ l, l < 32 → m.getLsbD l = true → 0 ≤ indexOf g r.d.toNat r l ∧ indexOf g r.d.toNat r l < g.allot) →
    ∃ h, exec (.movwx r) s = .next (s.setGroup s.cur.key h) ∧ h.pc slot1 = g.pc slot1 + 8 ∧ KeptRest slot1 g h ∧
      h.s = g.s ∧ h.sPoison = g.sPoison ∧ h.p = g.p ∧ h.fpflags = g.fpflags ∧ h.held = g.held ∧
      ∀ k l, l < 32 →
        h.getV k l = (if m.getLsbD l = true ∧ indexOf g r.d.toNat r l = k then g.src r.a.toNat r.ua l else g.getV k l) ∧
        (h.poisonV k).getLsbD l = (if m.getLsbD l = true ∧ indexOf g r.d.toNat r l = k then (g.srcPoison r.a.toNat 1 r.ua).getLsbD l
          else (g.poisonV k).getLsbD l)) ∧
  (Issues (.v2p r) s g m → g.consume 3 m [(r.a.toNat, 1, r.ua)] = .ok () →
    ∃ p, exec (.v2p r) s = .next (s.setGroup s.cur.key (({ g with p } : Group).advance slot1)) ∧
      ∀ k l, l < 32 → (({ g with p } : Group).getP k).getLsbD l =
        if k < 7 ∧ m.getLsbD l = true then (opA g r l).getLsbD k else (g.getP k).getLsbD l) ∧
  (Issues (.fsetm r) s g m → m ≠ 0 → g.consumeU 8 m [r.a.toNat, r.c.toNat] = .ok () →
    let new (old : Word) : Word := (old &&& ~~~(g.getS r.c.toNat)) ||| g.getS r.a.toNat
    (r.b = 0x13 → exec (.fsetm r) s = .next (s.setGroup s.cur.key
      ((({ g with fpmode := new g.fpmode &&& 0x1F } : Group).setS r.d.toNat g.fpmode false).advance slot1))) ∧
    (r.b ≠ 0x13 → exec (.fsetm r) s = .next (s.setGroup s.cur.key
      ((({ g with arithmode := new g.arithmode &&& 2 } : Group).setS r.d.toNat g.arithmode false).advance slot1)))) ∧
  (Issues (.clrf r) s g m → m ≠ 0 → g.consumeU 8 m [r.a.toNat] = .ok () →
    exec (.clrf r) s = .next (s.setGroup s.cur.key
      ((({ g with fpflags := g.fpflags &&& ~~~(g.getS r.a.toNat) } : Group).setS r.d.toNat g.fpflags false).advance slot1))) ∧
  (∀ k x, ({ g with fpmode := k } : Group).getS x = g.getS x ∧ (∀ y, (g.setS x y false).getS x = y ∧ (g.setS x y false).poisonS x = false ∧
    ∀ z, z ≠ x → (g.setS x y false).getS z = g.getS z))

/-- The FP32 words (R119 to R125). RoundTo, which rounds the results of all three tables of floating words, gives the format's value nearest
to the exact one under RN, of two as near the one of even encoding, and under the directed modes the nearest on their side; it is inexact where
it differs (R109, R110). -/
def Obligations.FloatWords : Prop := RoundingHolds ∧ ∀ s g m r q, TableHolds s g m (floatTable g m r q)

/-- The FP64 words (R126), the packed words (R127) and the conversions (R128 to R131). -/
def Obligations.WideAndNarrowFloatWords : Prop :=
  ∀ s g m r, TableHolds s g m (doubleTable g m r ++ packTable g m r ++ convertTable g m r)

/-- A pair word writes both results in the lanes of the mask, each poisoned where a register that its half reads is (R44 to R47, R94): both
halves read before either writes; the flags of both are merged; no other register changes. -/
def Obligations.PairWords : Prop :=
  ∀ s g m (p : PairWord), Issues (.pairWord p) s g m →
    (∀ l, l < 32 → m.getLsbD l = true → ((halfResult g p.h0 l).2 ||| (halfResult g p.h1 l).2) &&& g.fpmode.truncate 5 = 0) →
    ∃ h, exec (.pairWord p) s = .next (s.setGroup s.cur.key h) ∧ h.pc s.cur.slot1 = g.pc s.cur.slot1 + 8 ∧
      KeptRest s.cur.slot1 g h ∧ h.s = g.s ∧ h.sPoison = g.sPoison ∧ h.p = g.p ∧
      (∀ k l, l < 32 → h.getV k l =
        if m.getLsbD l = true ∧ k = p.h1.d.toNat then (halfResult g p.h1 l).1
        else if m.getLsbD l = true ∧ k = p.h0.d.toNat then (halfResult g p.h0 l).1 else g.getV k l) ∧
      (∀ k l, l < 32 → (h.poisonV k).getLsbD l =
        if m.getLsbD l = true ∧ k = p.h1.d.toNat then p.h1.reads.any (fun x => (g.poisonV x).getLsbD l)
        else if m.getLsbD l = true ∧ k = p.h0.d.toNat then p.h0.reads.any (fun x => (g.poisonV x).getLsbD l)
        else (g.poisonV k).getLsbD l) ∧
      (if s.cur.slot1 then h.fpflags = g.fpflags ∧
          h.held = g.held ||| orFlagsOf m (fun l => (halfResult g p.h0 l).2 ||| (halfResult g p.h1 l).2)
        else h.held = g.held ∧
          h.fpflags = g.fpflags ||| (orFlagsOf m (fun l => (halfResult g p.h0 l).2 ||| (halfResult g p.h1 l).2)).zeroExtend 32)

/-! ## Control and divergence -/

/-- Uniform transfers complete at their targets (R42, R86, R87): BRA where its condition holds for its slot's lanes and at the next word
where it does not, BRX, RET and CALLX at the pair that A names, CALL at its target; CALL and CALLX write the address of the next word to
their link pair; nothing else changes. A poisoned register of a transfer traps POISON, and a target of BRX, RET or CALLX that is no multiple
of 8 traps FETCH at the word, with no effect (R87, R94).
YIELD and SLEEP go on at the next word (R89, R90): the group ranks as the youngest until its next issue; a SLEEP of more than 0
ticks waits until its tick. -/
def Obligations.UniformWords : Prop :=
  (∀ s g m (b : BWord) (r : RWord),
  let cur := g.mask s.cur.slot1
  let cond := brBits b 23 3
  let cr := brBits b 15 8
  let target : DWord := g.pc s.cur.slot1 + 8 * b.tgt.signExtend 64
  (Issues (.bra b) s g m → ((cond = 1 ∨ cond = 2) → g.poisonS cr = false) →
    CompletesAt (.bra b) s g m {} (if match cond with
      | 0 => true
      | 1 => g.getS cr != 0
      | 2 => g.getS cr == 0
      | 3 => (cur &&& g.getP cr) != 0
      | 4 => (cur &&& ~~~(g.getP cr)) == 0
      | _ => (cur &&& g.getP cr) == 0 then target else g.pc s.cur.slot1 + 8)) ∧
  (g.poisonS r.a.toNat = false → g.poisonS (r.a.toNat + 1) = false → (g.getS64 r.a.toNat).toNat % 8 = 0 →
    (Issues (.brx r) s g m → CompletesAt (.brx r) s g m {} (g.getS64 r.a.toNat)) ∧
    (Issues (.ret r) s g m → CompletesAt (.ret r) s g m {} (g.getS64 r.a.toNat)) ∧
    (Issues (.callx r) s g m → CompletesAt (.callx r) s g (BitVec.allOnes 32)
      { ud := true, d := r.d.toNat, vals := [fun _ => lo32 (g.pc0 + 8), fun _ => hi32 (g.pc0 + 8)] } (g.getS64 r.a.toNat))) ∧
  (((cond = 1 ∨ cond = 2) ∧ g.poisonS cr = true → Issues (.bra b) s g m → TrapsIn (.bra b) s g (poisonTrap 9 cr true cur)) ∧
    ∀ i ∈ [Instr.brx r, .ret r, .callx r], Issues i s g m →
      (g.poisonS r.a.toNat = true → TrapsIn i s g (poisonTrap 9 r.a.toNat true g.mask0)) ∧
      (g.poisonS r.a.toNat = false → g.poisonS (r.a.toNat + 1) = false → (g.getS64 r.a.toNat).toNat % 8 ≠ 0 →
        TrapsIn i s g (trap64 4 1 (g.getS64 r.a.toNat) g.mask0))) ∧
  (Issues (.call b) s g m → CompletesAt (.call b) s g (BitVec.allOnes 32)
    { ud := true, d := brBits b 18 8, vals := [fun _ => lo32 (g.pc0 + 8), fun _ => hi32 (g.pc0 + 8)] } target)) ∧
  ∀ s g m (q : IWord),
  (Issues .yield s g m → exec .yield s = .next (s.setGroup s.cur.key { (g.advance s.cur.slot1) with young := true })) ∧
  (Issues (.sleep q) s g m → exec (.sleep q) s = .next (s.setGroup s.cur.key
    (if q.imm = 0 then { (g.advance false) with young := true }
     else { (g.advance false) with wait := .sleep, wake := s.tick + q.imm.zeroExtend 64 })))

/-- IF pushes its entry and goes on (R73, R77): divided into both slots where both sides have lanes and slot 1 is free, with the other
side pending where slot 1 is not, and at the other side where no lane takes the first.
ELSE and ENDIF meet the IF entry on top (R78): the pending side runs next; where none is left the entry is popped and the lanes that
entered and still live go on after the ENDIF, or Resolve finds where the group goes on (R81). They wait while that entry is divided, and with
no such entry on top they trap DIVSTACK, reason 3. Pushes and pops go through the stack area where the chip holds eight entries, whose 32 bytes
are read back as they were written (R73, R74). -/
def Obligations.IfWords : Prop :=
  (∀ s g m (b : BWord), Issues (.ifThen b) s g m → g.depth < 64 → (g.isSup = true ∨ g.stack.length < 8) →
  let t := brCond b g
  let e := g.mask0 &&& ~~~t
  let x : StackEntry :=
    { rm := g.mask0, pm := 0, pc := brTarget b g.pc0, epc := g.pc0 + BitVec.ofNat 64 (8 * brBits b 0 17), kf := 1 }
  let pushed (y : StackEntry) (pc : DWord) : Group := { (g.goTo false pc) with stack := y :: g.stack, depth := g.depth + 1 }
  (t ≠ 0 → e ≠ 0 → g.run1 = false → exec (.ifThen b) s = .next (s.setGroup s.cur.key
    { (pushed { x with kf := 0x101 } (g.pc0 + 8)) with
      mask0 := t, pc1 := x.pc, mask1 := e, held := 0, run1 := true, retry1 := Retry.none, pend1 := none, settle1 := false })) ∧
  (t ≠ 0 → (e = 0 ∨ g.run1 = true) →
    exec (.ifThen b) s = .next (s.setGroup s.cur.key { (pushed { x with pm := e } (g.pc0 + 8)) with mask0 := t })) ∧
  (t = 0 → exec (.ifThen b) s = .next (s.setGroup s.cur.key { (pushed x x.pc) with mask0 := e }))) ∧
  (∀ s g e cur, PushHolds s g e cur ∧ PopHolds s g cur ∧ stackEntryOf e.bytes = e) ∧
  (∀ s g m (b : BWord), Issues (.ifThen b) s g m →
    let t := brCond b g
    let e := g.mask0 &&& ~~~t
    let divides : Prop := t ≠ 0 ∧ e ≠ 0 ∧ g.run1 = false
    ∀ x : StackEntry, x.rm = g.mask0 → x.pc = brTarget b g.pc0 → x.epc = g.pc0 + BitVec.ofNat 64 (8 * brBits b 0 17) →
      (divides → x.pm = 0 ∧ x.kf = 0x101) → (¬ divides → x.pm = (if t = 0 then 0 else e) ∧ x.kf = 1) →
    (∀ f, s.push g x g.mask0 = .error (.trap f) → TrapsIn (.ifThen b) s g f) ∧
    ∀ u h, s.push g x g.mask0 = .ok (u, h) →
      (divides → exec (.ifThen b) s = .next (u.setGroup s.cur.key { (h.goTo false (g.pc0 + 8)) with
        mask0 := t, pc1 := x.pc, mask1 := e, held := 0, run1 := true, retry1 := Retry.none, pend1 := none, settle1 := false })) ∧
      (¬ divides → t ≠ 0 → exec (.ifThen b) s = .next (u.setGroup s.cur.key { (h.goTo false (g.pc0 + 8)) with mask0 := t })) ∧
      (t = 0 → exec (.ifThen b) s = .next (u.setGroup s.cur.key { (h.goTo false x.pc) with mask0 := e }))) ∧
  (∀ s g m (b : BWord),
    let fits (i : Instr) (x : DWord) : Prop := Issues i s g m →
      (g.depth = 0 → TrapsIn i s g (trap0 18 3 g.mask0)) ∧
      ∀ t rest, g.stack = t :: rest → 0 < g.depth → g.belowEntry 0 = false →
        ((t.kind ≠ 1 ∨ t.epc ≠ x) → TrapsIn i s g (trap0 18 3 g.mask0)) ∧
        (t.kind = 1 → t.epc = x → t.split = true → g.inEntry = false → exec i s = .next (s.waitAt .splitTop)) ∧
        (t.kind = 1 → t.epc = x → t.split = false → t.pm = 0 →
          (∀ f, s.pop g g.mask0 = .error (.trap f) → TrapsIn i s g f) ∧
          ∀ p, s.pop g g.mask0 = .ok p →
            (t.rm &&& g.live ≠ 0 →
              exec i s = .next (s.setGroup s.cur.key { (p.goTo false (x + 8)) with mask0 := t.rm &&& g.live })) ∧
            (t.rm &&& g.live = 0 → EndsResolved i s g { p with mask0 := 0 }))
    fits (.elseW b) (brTarget b g.pc0) ∧ fits .endif g.pc0) ∧
  ∀ s g m (b : BWord) (t : StackEntry) rest, g.stack = t :: rest → 0 < g.depth → g.belowEntry 0 = false → t.kind = 1 →
    t.split = false →
  let goes (i : Instr) (x : DWord) : Prop := Issues i s g m → t.epc = x →
    (t.pm ≠ 0 → exec i s = .next (s.setGroup s.cur.key
      { (g.goTo false t.pc) with stack := { t with pm := 0 } :: rest, mask0 := t.pm })) ∧
    (t.pm = 0 → g.spill = 0 → t.rm &&& g.live ≠ 0 → exec i s = .next (s.setGroup s.cur.key
      { (g.goTo false (x + 8)) with stack := rest, depth := g.depth - 1, mask0 := t.rm &&& g.live }))
  goes (.elseW b) (brTarget b g.pc0) ∧ goes .endif g.pc0

/-- LOOP pushes its entry; ENDLOOP goes back to the head with the lanes that wait there (R79); BREAK and CONT take the lanes of their
condition from every entry down to the loop's, and CONT leaves them waiting at it (R80); where they leave no lane, Resolve is part of them
(R81). With no LOOP entry, or one of another ENDLOOP, they trap DIVSTACK, reason 3. -/
def Obligations.LoopWords : Prop :=
  ∀ s g m (b : BWord),
  (Issues (.loopW b) s g m → g.depth < 64 → (g.isSup = true ∨ g.stack.length < 8) →
    exec (.loopW b) s = .next (s.setGroup s.cur.key { (g.goTo false (g.pc0 + 8)) with
      stack := { rm := g.mask0, pm := 0, pc := g.pc0 + 8, epc := brTarget b g.pc0, kf := 2 } :: g.stack, depth := g.depth + 1 })) ∧
  (∀ t rest, g.stack = t :: rest → 0 < g.depth → g.belowEntry 0 = false → t.kind = 2 → t.epc = g.pc0 → t.pc = brTarget b g.pc0 →
    Issues (.endloop b) s g m → exec (.endloop b) s = .next (s.setGroup s.cur.key
      { (g.goTo false t.pc) with stack := { t with pm := 0 } :: rest, mask0 := g.mask0 ||| t.pm })) ∧
  (∀ pre loop rest, g.stack = pre ++ loop :: rest → pre.length < 65 → pre.length < g.depth → g.inEntry = false →
    (∀ e ∈ pre, e.kind = 1) → loop.kind = 2 →
    (loop.epc ≠ brTarget b g.pc0 → ∀ i ∈ [Instr.breakW b, .cont b], Issues i s g m → TrapsIn i s g (trap0 18 3 g.mask0)) ∧
    (loop.epc = brTarget b g.pc0 →
    let c := brCond b g
    let left := pre.map (fun e => { e with rm := e.rm &&& ~~~c, pm := e.pm &&& ~~~c })
    (g.mask0 &&& ~~~c = 0 →
      (Issues (.breakW b) s g m → EndsResolved (.breakW b) s g { g with stack := left ++ loop :: rest, mask0 := 0 }) ∧
      (Issues (.cont b) s g m →
        EndsResolved (.cont b) s g { g with stack := left ++ { loop with pm := loop.pm ||| c } :: rest, mask0 := 0 })) ∧
    (g.mask0 &&& ~~~c ≠ 0 →
    (Issues (.breakW b) s g m → exec (.breakW b) s = .next (s.setGroup s.cur.key
      { (g.goTo false (g.pc0 + 8)) with stack := left ++ loop :: rest, mask0 := g.mask0 &&& ~~~c })) ∧
    (Issues (.cont b) s g m → exec (.cont b) s = .next (s.setGroup s.cur.key
      { (g.goTo false (g.pc0 + 8)) with stack := left ++ { loop with pm := loop.pm ||| c } :: rest, mask0 := g.mask0 &&& ~~~c }))))) ∧
  (∀ i ∈ [Instr.endloop b, .breakW b, .cont b], Issues i s g m → g.depth = 0 → TrapsIn i s g (trap0 18 3 g.mask0)) ∧
  (∀ t rest, g.stack = t :: rest → 0 < g.depth → g.belowEntry 0 = false → (t.kind ≠ 2 ∨ t.epc ≠ g.pc0 ∨ t.pc ≠ brTarget b g.pc0) →
    Issues (.endloop b) s g m → TrapsIn (.endloop b) s g (trap0 18 3 g.mask0)) ∧
  (Issues (.loopW b) s g m →
    let x : StackEntry := { rm := g.mask0, pm := 0, pc := g.pc0 + 8, epc := brTarget b g.pc0, kf := 2 }
    (∀ f, s.push g x g.mask0 = .error (.trap f) → TrapsIn (.loopW b) s g f) ∧
    ∀ u h, s.push g x g.mask0 = .ok (u, h) → exec (.loopW b) s = .next (u.setGroup s.cur.key (h.goTo false (g.pc0 + 8))))

/-- EXIT ends the lanes of ACTIVE (R88): the group goes on with the rest; where the slot has none left, slot 1 stops (R82), and slot 0
resumes the pending side of the entry on top, or goes on as Resolve says (R81); where the group has none left, it ends. -/
def Obligations.ExitWord : Prop :=
  (∀ s g cur, ResolveHolds s g cur) ∧
  ∀ s g m (r : RWord), Issues (.exit r) s g m → m ≠ 0 →
  let slot1 := s.cur.slot1
  let g1 := { g with live := g.live &&& ~~~m }.setMask slot1 (g.mask slot1 &&& ~~~m)
  (g.live &&& ~~~m = 0 → exec (.exit r) s = .next (s.endGroup s.cur.key (if g.run1 then g1.stopSecondary else g1))) ∧
  (g.live &&& ~~~m ≠ 0 → g.mask slot1 &&& ~~~m ≠ 0 →
    exec (.exit r) s = .next (s.setGroup s.cur.key (g1.goTo slot1 (g.pc slot1 + 8)))) ∧
  (g.live &&& ~~~m ≠ 0 → g.mask slot1 &&& ~~~m = 0 → slot1 = true → (g.isSup = true ∨ g.spill = 0) →
    exec (.exit r) s = .next (s.setGroup s.cur.key g1.stopSecondary)) ∧
  (g.live &&& ~~~m ≠ 0 → g.mask0 &&& ~~~m = 0 → slot1 = false → EndsResolved (.exit r) s g g1) ∧
  (∀ t rest, g.live &&& ~~~m ≠ 0 → g.mask0 &&& ~~~m = 0 → slot1 = false → g.stack = t :: rest → 0 < g.depth → g.belowEntry 0 = false →
    t.split = false → t.pm ≠ 0 → (t.kind = 1 ∨ t.kind = 2) → exec (.exit r) s = .next (s.setGroup s.cur.key
      { (g1.goTo false t.pc) with stack := { t with pm := 0 } :: rest, mask0 := t.pm }))

/-! ## Loads, stores and atomics -/

/-- LD and LDRO complete (R147 to R150): where no lane traps, every ACTIVE lane's run takes the bytes of memory at its address, poisoned
where their sector is, whatever the cache policy, order and scope; no byte of memory, no other part of the group and no other group changes.
Where L1 holds bytes, LD of a cacheable page, but with an acquire of device or system scope, takes what L1 holds where it holds every byte of
the access, and under CP = 3 its dirty bytes above those of memory, so what the core has stored (R84, R141, R166); the poison is that of L1's
sector and, where it holds dirty bytes, of memory's (R147). -/
def Obligations.GenericLoads : Prop :=
  (∀ s g m (r : MWord) e pa, Settled s g.core → NoStash s → AwaitsNone g → (s.core g.core).comps = [] →
    ASorted (s.core g.core).l1 → (linesOf (s.core g.core).l1).length ≤ 1024 → (s.core g.core).ro.length ≤ 256 →
    r.sz.toNat ≤ 5 → g.consume 4 m [(r.a.toNat, 2, r.au)] = .ok () → Reaches s (s.whoGroup g) .read true m (genAddr g r) (accSize r) e pa →
    (∀ l, l < 32 → m.getLsbD l = true → (e l).c = true) → (r.ord ≠ 1 ∨ r.sc.toNat < 2) → Issues (.ld r) s g m →
  let k := s.core g.core
  let key (l : Nat) : Nat := lkey (s.whoGroup g).asid (va57 (genAddr g r l))
  let mine (l j : Nat) : Option (Byte × Bool) := aget? (key l + j) k.l1
  let own (l : Nat) : Bool := !(k.dirtyOf (key l / 64)).isEmpty
  let bad (l : Nat) : Bool := k.badL1 (key l / 64)
  let memBad (l : Nat) : Bool := s.memPoison.contains (pa l / 64)
  let loads (b : Nat → Nat → Byte) (p : Nat → Bool) : Prop := ∃ t h, exec (.ld r) s = .next t ∧ t.mem = s.mem ∧ OnlyGroup s t h ∧
    Loads s.cur.slot1 m r.d.toNat (accSize r) (loadSx r) b p g h
  (r.cp ≠ 3 → (∀ l, l < 32 → m.getLsbD l = true → ∀ j, j < accSize r → (mine l j).isSome = true) →
    loads (fun l j => ((mine l j).map Prod.fst).getD 0) (fun l => bad l || (own l && memBad l))) ∧
  (r.cp = 3 → loads (fun l j => match mine l j with
      | some (x, true) => x
      | _ => s.readPhys (pa l + j)) (fun l => memBad l || (own l && bad l)))) ∧
  ∀ s g m (r : MWord) e pa, Calm s g → r.sz.toNat ≤ 5 → g.consume 4 m [(r.a.toNat, 2, r.au)] = .ok () →
    Reaches s (s.whoGroup g) .read true m (genAddr g r) (accSize r) e pa →
  let done (i : Instr) : Prop := Issues i s g m → ∃ t h, exec i s = .next t ∧ t.mem = s.mem ∧ OnlyGroup s t h ∧
    Loads s.cur.slot1 m r.d.toNat (accSize r) (loadSx r) (fun l k => s.readPhys (pa l + k))
      (fun l => s.memPoison.contains (pa l / 64)) g h
  done (.ld r) ∧ done (.ldro r)

/-- A plain ST of a cacheable page completes (R140, R149): its bytes are dirty in L1, each byte from the highest ACTIVE lane that stores
it, and nothing else is there; no byte of memory and no register changes.
An ST that goes through L1 completes (R141, R160): under CP = 3, with a release of device or system scope, or to a page that is not
cacheable, every byte of memory is as before but for the bytes stored, each from the highest ACTIVE lane that stores it. -/
def Obligations.GenericStores : Prop :=
  (∀ s g m (r : MWord) e pa, Calm s g → r.sz.toNat ≤ 5 → g.consume 4 m [(r.a.toNat, 2, r.au)] = .ok () →
    Reaches s (s.whoGroup g) .write true m (genAddr g r) (accSize r) e pa → (∀ l, l < 32 → m.getLsbD l = true → (e l).c = true) →
    r.cp ≠ 3 → (r.ord ≠ 2 ∨ r.sc.toNat < 2) → Issues (.st r) s g m →
  ∃ t, exec (.st r) s = .next t ∧ t.mem = s.mem ∧ OnlyGroup s t (g.advance s.cur.slot1) ∧
    ∀ q, aget? q (t.core g.core).l1 =
      (lastLane m (fun l => lkey (s.whoGroup g).asid (va57 (genAddr g r l))) (accSize r) q).map (fun l =>
        (runByte g r.b.toNat l (q - lkey (s.whoGroup g).asid (va57 (genAddr g r l))), true))) ∧
  ∀ s g m (r : MWord) e pa, Calm s g → r.sz.toNat ≤ 5 → g.consume 4 m [(r.a.toNat, 2, r.au)] = .ok () →
    Reaches s (s.whoGroup g) .write true m (genAddr g r) (accSize r) e pa →
    (∀ l, l < 32 → m.getLsbD l = true → (e l).stripe = none ∧ 6 ≤ (e l).bits) →
    (r.cp = 3 ∨ (r.ord = 2 ∧ 2 ≤ r.sc.toNat) ∨ ∀ l, l < 32 → m.getLsbD l = true → (e l).c = false) → Issues (.st r) s g m →
  ∃ t, exec (.st r) s = .next t ∧ OnlyGroup s t (g.advance s.cur.slot1) ∧
    ∀ x, t.readPhys x = match lastLane m pa (accSize r) x with
      | some l => runByte g r.b.toNat l (x - pa l)
      | none => s.readPhys x

/-- LDS, and LDM as it lays rows and as it transposes, complete in the local area (R137, R149, R151): every ACTIVE lane's run takes its
bytes, poisoned where their sector is; nothing else changes. LDS of mapped stash granules takes the bytes of the memory that they stand for,
and a sector that it touches first is then the stash's (R139). A scratchpad offset outside both areas is refused first, then an unmapped
granule, then a store to one mapped without W, and then what the page's own check refuses (R138, R409). -/
def Obligations.LocalLoads : Prop :=
  (∀ s g m (r : MWord) bn b (sec pa : Nat → Nat) (fill : Nat → Option PermEntry), EmptyCaches (s.core g.core) → Settled s g.core → (s.core g.core).comps = [] → g.blk = some bn →
    aget? bn s.blocks = some b → b.core = g.core → r.sz.toNat ≤ 5 → g.consume 4 m [(r.a.toNat, 1, r.au)] = .ok () →
    AlignedAt m (accSize r) (scrAddr g r) →
    (∀ l, l < 32 → m.getLsbD l = true →
      s.scrCheck (s.whoGroup g) (some b) false (scrAddr g r l) (accSize r) = .ok (.stash (sec l) (pa l) (fill l))) →
    Issues (.lds r) s g m →
  ∃ t h b', exec (.lds r) s = .next t ∧ t.mem = s.mem ∧ OnlyGroup s t h ∧ aget? bn t.blocks = some b' ∧
    { b' with stashFilled := b.stashFilled } = b ∧ (∀ l, l < 32 → m.getLsbD l = true → (aget? (sec l) b'.stashFilled).isSome = true) ∧
    Loads s.cur.slot1 m r.d.toNat (accSize r) (loadSx r) (fun l k => s.readPhys (pa l + k)) (fun l => s.physPoison (pa l) (accSize r)) g h) ∧
  (∀ (s : State) w (b : Block) wr (o : Int) (n : Nat),
    let size : Int := b.localSize + b.stashSize
    let q := o.toNat - b.localSize
    let granule := aget? (q / 4096) b.stash
    ((o < 0 ∨ size < o + n) → s.scrCheck w (some b) wr o n = .error kSCRBOUND) ∧
    (0 ≤ o → o + n ≤ size → o < b.localSize → s.scrCheck w (some b) wr o n = .ok (.loc o.toNat)) ∧
    (0 ≤ o → o + n ≤ size → b.localSize ≤ o → granule = none → s.scrCheck w (some b) wr o n = .error kSTASHUNMAP) ∧
    ∀ x, 0 ≤ o → o + n ≤ size → b.localSize ≤ o → granule = some x →
      (wr = true → x.w = false → s.scrCheck w (some b) wr o n = .error kSTASHRO) ∧
      ((wr = false ∨ x.w = true) →
        (∀ y, aget? (q / 64) b.stashFilled = some y → s.scrCheck w (some b) wr o n = .ok (.stash (q / 64) (y.1 + q % 64) none)) ∧
        (aget? (q / 64) b.stashFilled = none →
          (∀ k, s.permLookup w (canon57 (x.page + q % 4096)) = .error k → s.scrCheck w (some b) wr o n = .error k) ∧
          ∀ e, s.permLookup w (canon57 (x.page + q % 4096)) = .ok e →
            (∀ k, permCheck w (if wr then .write else .read) e = .error k → s.scrCheck w (some b) wr o n = .error k) ∧
            (permCheck w (if wr then .write else .read) e = .ok () →
              ((e.stripe.isSome = true ∨ hbmEnd ≤ e.pa) → s.scrCheck w (some b) wr o n = .error kSTASHTARGET) ∧
              (e.stripe = none → e.pa < hbmEnd → s.scrCheck w (some b) wr o n =
                .ok (.stash (q / 64) (e.pa + va57 (canon57 (x.page + q % 4096)) % 2 ^ e.bits) (some e))))))) ∧
  ∀ s g m (r : MWord) b, s.blockOf g = some b → r.sz.toNat ≤ 5 → g.consume 4 m [(r.a.toNat, 1, r.au)] = .ok () → InLocal b g m r →
  let n := accSize r
  let at' (l k : Nat) : Byte := aval 0 ((scrAddr g r l).toNat + k) b.loc
  let bad (l : Nat) : Bool := (sectorsOf (scrAddr g r l).toNat n).any (fun q => b.locPoison.contains q)
  let run (sx : Bool) (f : Nat → Nat → Byte) (p : Nat → Bool) : Writes := runWrites r.d.toNat n sx f p
  let row (l : Nat) : List Byte := if m.getLsbD l then (List.range n).map (at' l) else List.replicate n 0
  (Issues (.lds r) s g m → Completes (.lds r) s g m (run (loadSx r) at' bad)) ∧
  (Issues (.ldm r) s g m → 4 ≤ r.sz.toNat → fragT r.b.toNat = false → Completes (.ldm r) s g m (run false at' bad)) ∧
  (Issues (.ldm r) s g m → 4 ≤ r.sz.toNat → fragT r.b.toNat = true → Completes (.ldm r) s g m
    (run false (fun l k => (ldmRow (fragBits r.b.toNat) n l row).getD k 0)
      (fun l => (ldmFrom (fragBits r.b.toNat) n l).any (fun k => m.getLsbD k && bad k))))

/-- STS, and STM as it lays rows and as it transposes, complete in the local area (R137, R149, R151): each byte comes from the highest
ACTIVE lane that stores it, and a lane that stores a poisoned register poisons its sector (R147); no other byte of the local area, no byte of
memory, no register, no other group and no other block changes. STS to mapped stash granules changes exactly those bytes of the memory that
they stand for (R139). -/
def Obligations.LocalStores : Prop :=
  (∀ s g m (r : MWord) bn b (sec pa : Nat → Nat) (fill : Nat → Option PermEntry), EmptyCaches (s.core g.core) → Settled s g.core → (s.core g.core).comps = [] → g.blk = some bn →
    aget? bn s.blocks = some b → b.core = g.core → r.sz.toNat ≤ 5 → g.consume 4 m [(r.a.toNat, 1, r.au)] = .ok () →
    AlignedAt m (accSize r) (scrAddr g r) →
    (∀ l, l < 32 → m.getLsbD l = true →
      s.scrCheck (s.whoGroup g) (some b) true (scrAddr g r l) (accSize r) = .ok (.stash (sec l) (pa l) (fill l))) →
    Issues (.sts r) s g m →
  ∃ t b', exec (.sts r) s = .next t ∧ OnlyGroup s t (g.advance s.cur.slot1) ∧ aget? bn t.blocks = some b' ∧
    { b' with stashFilled := b.stashFilled } = b ∧ (∀ l, l < 32 → m.getLsbD l = true → (aget? (sec l) b'.stashFilled).isSome = true) ∧
    ∀ x, t.readPhys x = match lastLane m pa (accSize r) x with
      | some l => runByte g r.b.toNat l (x - pa l)
      | none => s.readPhys x) ∧
  ∀ s g m (r : MWord) bn b, g.blk = some bn → aget? bn s.blocks = some b → r.sz.toNat ≤ 5 →
    g.consume 4 m [(r.a.toNat, 1, r.au)] = .ok () → InLocal b g m r →
  let n := accSize r
  let run (l : Nat) : List Byte := if (g.mask s.cur.slot1).getLsbD l then (List.range n).map (runByte g r.b.toNat l) else List.replicate n 0
  let bad (l : Nat) : Bool := (List.range (runRegs n)).any (fun j => (g.poisonV (r.b.toNat + j)).getLsbD l)
  let done (i : Instr) (f : Nat → Nat → Byte) (bad : Nat → Bool) : Prop := Issues i s g m →
    ∃ t b', exec i s = .next t ∧ t.mem = s.mem ∧ OnlyGroup s t (g.advance s.cur.slot1) ∧ aget? bn t.blocks = some b' ∧
      { b' with loc := b.loc, locPoison := b.locPoison } = b ∧ (∀ k, k ≠ bn → aget? k t.blocks = aget? k s.blocks) ∧
      (∀ x, aval 0 x b'.loc = match lastLane m (fun l => (scrAddr g r l).toNat) n x with
        | some l => f l (x - (scrAddr g r l).toNat)
        | none => aval 0 x b.loc) ∧
      ∀ q, q ∈ b'.locPoison ↔ q ∈ b.locPoison ∨ ∃ l, l < 32 ∧ m.getLsbD l = true ∧ bad l = true ∧ (scrAddr g r l).toNat / 64 = q
  done (.sts r) (runByte g r.b.toNat) bad ∧
  (4 ≤ r.sz.toNat → fragT r.d.toNat = false → done (.stm r) (runByte g r.b.toNat) bad) ∧
  (4 ≤ r.sz.toNat → fragT r.d.toNat = true → done (.stm r) (fun l k => (stmRow (fragBits r.d.toNat) n l run).getD k 0)
    (fun l => (stmFrom (fragBits r.d.toNat) n l).any (fun q =>
      (g.mask s.cur.slot1).getLsbD q.1 && (g.poisonV (r.b.toNat + q.2)).getLsbD q.1)))

/-- ATOMS and CASS complete in the local area (R171, R172): where nothing is poisoned, the ACTIVE lanes act in ascending order, each gets its
old bytes, and the local area is what they leave; no byte of memory, no other part of the group, no other group and no other block changes. -/
def Obligations.ScratchpadAtomics : Prop :=
  ∀ s g m (r : MWord) bn b, g.blk = some bn → aget? bn s.blocks = some b → 2 ≤ r.sz.toNat → r.sz.toNat ≤ 4 →
    g.consume 4 m [(r.a.toNat, 1, r.au)] = .ok () → InLocal b g m r → b.locPoison = [] → g.vPoison = [] →
  let q (a : AtomAct) := atomSeq a g r (fun l => (scrAddr g r l).toNat) (Mask.toLanes m) (fun x => aval 0 x b.loc)
  ∀ i a, (i, a) ∈ scratchAtomics r → Issues i s g m →
    ∃ t h b', exec i s = .next t ∧ t.mem = s.mem ∧ OnlyGroup s t h ∧
      Loads s.cur.slot1 m r.d.toNat (accSize r) false (fun l k => ((q a).2 l).getD k 0) (fun _ => false) g h ∧
      aget? bn t.blocks = some b' ∧ { b' with loc := b.loc, locPoison := b.locPoison } = b ∧
      (∀ k, k ≠ bn → aget? k t.blocks = aget? k s.blocks) ∧ ∀ x, aval 0 x b'.loc = (q a).1 x

/-- ATOM, CAS and RED of device or system scope complete on device memory (R169, R171 to R173): where nothing is poisoned, the ACTIVE lanes
act in ascending order, memory is what they leave, and under ATOM and CAS each gets its old bytes; no other part of the group and no other
group changes. -/
def Obligations.DeviceAtomics : Prop :=
  ∀ s g m (r : MWord) e pa, Calm s g → 2 ≤ r.sz.toNat → r.sz.toNat ≤ 4 → 2 ≤ r.sc.toNat →
    g.consume 4 m [(r.a.toNat, 2, r.au)] = .ok () → g.vPoison = [] → s.memPoison = [] →
  let q (a : AtomAct) := atomSeq a g r pa (Mask.toLanes m) s.readPhys
  let can (a : AtomAct) : Prop :=
    Reaches s (s.whoGroup g) .atomicDev (s.atomicOpEn && pcieAtomic a r) m (genAddr g r) (accSize r) e pa
  (∀ i a, (i, a) ∈ returningAtomics r → can a → Issues i s g m →
    ∃ t h, exec i s = .next t ∧ OnlyGroup s t h ∧
      Loads s.cur.slot1 m r.d.toNat (accSize r) false (fun l k => ((q a).2 l).getD k 0) (fun _ => false) g h ∧ ∀ x, t.readPhys x = (q a).1 x) ∧
  (∀ i a, (i, a) ∈ reductions r → can a → Issues i s g m →
    ∃ t, exec i s = .next t ∧ OnlyGroup s t (g.advance s.cur.slot1) ∧ ∀ x, t.readPhys x = (q a).1 x)

/-- ATOM, CAS and RED of block scope complete on a cacheable page (R169, R171, R172): where nothing is poisoned, they act in the core's L1,
which holds what the lanes leave, so no byte of memory changes, and each lane of ATOM and CAS gets the bytes that the lanes before it left; no
other part of the group and no other group changes. -/
def Obligations.BlockAtomics : Prop :=
  ∀ s g m (r : MWord) e pa (img : Nat → Byte), Calm s g → 2 ≤ r.sz.toNat → r.sz.toNat ≤ 4 → r.sc.toNat < 2 →
    g.consume 4 m [(r.a.toNat, 2, r.au)] = .ok () → g.vPoison = [] → s.memPoison = [] →
    (∀ l, l < 32 → m.getLsbD l = true → (e l).c = true) →
  let addr (l : Nat) : Nat := lkey (s.whoGroup g).asid (va57 (genAddr g r l))
  let q (a : AtomAct) := atomSeq a g r addr (Mask.toLanes m) img
  (∀ l, l < 32 → m.getLsbD l = true → ∀ k, k < accSize r → img (addr l + k) = s.readPhys (pa l + k)) →
  let can (a : AtomAct) : Prop :=
    Reaches s (s.whoGroup g) .atomicBlk (s.atomicOpEn && pcieAtomic a r) m (genAddr g r) (accSize r) e pa
  let holds (t : State) (a : AtomAct) : Prop := ∀ l, l < 32 → m.getLsbD l = true → ∀ k, k < accSize r →
    (aget? (addr l + k) (t.core g.core).l1).map Prod.fst = some ((q a).1 (addr l + k))
  (∀ i a, (i, a) ∈ returningAtomics r → can a → Issues i s g m →
    ∃ t h, exec i s = .next t ∧ t.mem = s.mem ∧ OnlyGroup s t h ∧
      Loads s.cur.slot1 m r.d.toNat (accSize r) false (fun l k => ((q a).2 l).getD k 0) (fun _ => false) g h ∧ holds t a) ∧
  (∀ i a, (i, a) ∈ reductions r → can a → Issues i s g m →
    ∃ t, exec i s = .next t ∧ t.mem = s.mem ∧ OnlyGroup s t (g.advance s.cur.slot1) ∧ holds t a)

/-! ## Caches, fences, stash windows -/

/-- Prefetch, cache control and ROINV complete (R150, R152, R153): each ACTIVE lane's line is acted on in ascending order and the slot goes
on; CCTL.SYSWB waits while a posted write of its context is not acknowledged; a lane of PREF whose base is poisoned does nothing; discarding
clean bytes changes no byte of memory. ROINV empties the core's read-only path, and keeps what links are bringing for it out of it.
PROBE completes (R154): each ACTIVE lane's D takes the word that describes its page, unpoisoned; no byte of memory, no other part of the
group and no other group changes. -/
def Obligations.CacheAndProbeWords : Prop :=
  (∀ s g m (r : MWord) (q : RWord), m ≠ 0 →
  let w := s.whoGroup g
  let each (m : Mask) (f : State → DWord → State) : State := (Mask.toLanes m).foldl (fun s l => f s (genAddr g r l)) s
  (Issues (.roinv q) s g m →
    exec (.roinv q) s = .next (s.dropRo g.core).advance ∧ (∀ e ∈ (s.dropRo g.core).requests, e.2.core = g.core → e.2.ro = none) ∧
      ∀ k, aget? g.core s.cores = some k → (s.dropRo g.core).core g.core = { k with ro := [], roPoison := [] }) ∧
  (Issues (.pref r) s g m → exec (.pref r) s = .next ((Mask.toLanes (m &&& ~~~(g.srcPoison r.a.toNat 2 r.au))).foldl
    (fun s l => s.prefetch (s.whoGroup g) (genAddr g r l) r.cp.toNat) s).advance) ∧
  (g.consume 4 m [(r.a.toNat, 2, r.au)] = .ok () →
    (Issues (.cctlWb r) s g m → exec (.cctlWb r) s = .next (each m (fun s va => s.lineWb w va)).advance) ∧
    (Issues (.cctlInv r) s g m → exec (.cctlInv r) s = .next (each m (fun s va => s.lineInv w va)).advance ∧
      (each m (fun s va => s.lineInv w va)).advance.mem = s.mem) ∧
    (Issues (.cctlWbinv r) s g m → exec (.cctlWbinv r) s = .next (each m (fun s va => (s.lineWb w va).lineInv w va)).advance) ∧
    (Issues (.cctlSyswb r) s g m →
      let out := each m (fun s va => (s.lineWb w va).hostWb w va)
      (out.postedOut w.core w.ctxid = false → exec (.cctlSyswb r) s = .next out.advance) ∧
      (out.postedOut w.core w.ctxid = true → exec (.cctlSyswb r) s = .next (out.waitAt (.posted w.ctxid.toNat)))) ∧
    (Issues (.cctlSysinv r) s g m →
      exec (.cctlSysinv r) s = .next (each m (fun s va => (s.lineInv w va).hostLineInv w va)).advance ∧
      (each m (fun s va => (s.lineInv w va).hostLineInv w va)).advance.mem = s.mem))) ∧
  ∀ s g m (r : MWord), (s.core g.core).perm.length ≤ 400 → g.consume 4 m [(r.a.toNat, 2, r.au)] = .ok () →
    Issues (.probe r) s g m →
  ∃ t h, exec (.probe r) s = .next t ∧ t.mem = s.mem ∧ OnlyGroup s t h ∧ KeptRest s.cur.slot1 g h ∧
    h.pc s.cur.slot1 = g.pc s.cur.slot1 + 8 ∧
    Wrote s.cur.slot1 m { d := r.d.toNat, vals := [fun l => BitVec.ofNat 32 (probeWord s (s.whoGroup g) (genAddr g r l))] } g h

/-- FENCE completes with the release steps and then the acquire steps (R160, R161, R168). It waits while a RED of the core is not performed; a
release of device or system scope publishes, and waits while a host line that it went to is not the device's own; one of system scope waits
for the acknowledgement of its context's posted writes, and traps DEFERRED for those that failed; an acquire of device or system scope
refreshes. Where L1 holds nothing and nothing is outstanding it changes no byte of memory.
A publish puts every dirty byte of L1 in memory, where their pages are in device memory, no two of them at one place, and changes no other
byte; the bytes are then clean (R160). A refresh drops exactly the clean bytes (R161, R162). -/
def Obligations.FenceWord : Prop :=
  (∀ (s : State) c k, aget? c s.cores = some k → ASorted k.l1 → (∀ e ∈ k.perm, 6 ≤ e.bits) →
    let place (q : Nat) : Option Nat := (permFind k.perm (q / 2 ^ 57) (q % 2 ^ 57)).map (fun e => e.pa + q % 2 ^ 57 % 2 ^ e.bits)
    (∀ q x, aget? q k.l1 = some (x, true) → ∃ e, permFind k.perm (q / 2 ^ 57) (q % 2 ^ 57) = some e ∧ e.stripe = none ∧ e.pa < hbmEnd) →
    (∀ q x q' x', aget? q k.l1 = some (x, true) → aget? q' k.l1 = some (x', true) → place q = place q' → q = q') →
    (∀ a, (s.publish c).readPhys a = match k.l1.find? (fun b => b.2.2 && place b.1 == some a) with
      | some b => b.2.1
      | none => s.readPhys a) ∧
    ∀ q, aget? q ((s.publish c).core c).l1 = (aget? q k.l1).map (fun b => (b.1, false))) ∧
  (∀ (s : State) c k, aget? c s.cores = some k → ASorted k.l1 → (s.refresh c).mem = s.mem ∧
    ∀ q, aget? q ((s.refresh c).core c).l1 = match aget? q k.l1 with
      | some (x, true) => some (x, true)
      | _ => none) ∧
  ∀ s g m (r : RWord), Issues (.fence r) s g m → m ≠ 0 →
  let sc := xf r 0 2
  let ctx := (s.whoGroup g).ctxid
  let p := if sc < 2 then s else s.publish g.core
  let ends (u : State) : Prop :=
    (xbit r 2 = false → exec (.fence r) s = .next u.advance) ∧
    (xbit r 2 = true → u.redsOut g.core = false → exec (.fence r) s = .next (if sc < 2 then u else u.refresh g.core).advance) ∧
    (xbit r 2 = true → u.redsOut g.core = true → exec (.fence r) s = .next (u.waitAt .settle))
  (xbit r 3 = false → ends s) ∧
  (xbit r 3 = true → s.redsOut g.core = true → exec (.fence r) s = .next (s.waitAt .settle)) ∧
  (xbit r 3 = true → s.redsOut g.core = false →
    (sc < 2 → ends s) ∧
    (2 ≤ sc → p.ownsOut g.core = true → exec (.fence r) s = .next (p.waitAt .settle)) ∧
    (2 ≤ sc → p.ownsOut g.core = false →
      (sc = 2 → ends p) ∧
      (sc = 3 → p.postedOut g.core ctx = true → exec (.fence r) s = .next (p.waitAt (.posted ctx.toNat))) ∧
      (sc = 3 → p.postedOut g.core ctx = false → aget? ctx.toNat (p.core g.core).deferred = none → ends p) ∧
      ∀ d h, sc = 3 → p.postedOut g.core ctx = false → aget? ctx.toNat (p.core g.core).deferred = some d →
        p.group? s.cur.key = some h →
        TrapsWith (.fence r) s (p.modCore g.core (fun k => { k with deferred := adel ctx.toNat k.deferred })) h
          (trap64 13 (BitVec.ofNat 32 (d.kind + 256 * min d.count (2 ^ 24 - 1))) d.addr (g.mask s.cur.slot1)))) ∧
  (Calm s g → ∃ t, exec (.fence r) s = .next t ∧ t.mem = s.mem ∧ t.group? s.cur.key = some (g.advance s.cur.slot1))

/-- STMAP and STUNMAP complete with their status in D, poisoned where an operand is (R138, R94): the status is the first of R138 that applies
to the offset, the length and the page; under status 0 they map and unmap the granules of their range, an unmapped granule's sectors go, and
under any other status nothing but D changes. -/
def Obligations.StashWords : Prop :=
  ∀ s g m (r : RWord) bn b, m ≠ 0 → g.blk = some bn → aget? bn s.blocks = some b →
  let off := (g.getS r.a.toNat).toNat
  let len := (g.getS r.c.toNat).toNat
  let va := g.getS64 r.b.toNat
  let first := (off - b.localSize) / 4096
  let shaped (ok : Bool) : Prop := off % 4096 = 0 ∧ len % 4096 = 0 ∧ len ≠ 0 ∧ ok = true
  let inside : Prop := b.localSize ≤ off ∧ off + len ≤ b.localSize + b.stashSize
  let free : Prop := ∀ q ∈ b.stash, ¬ (first ≤ q.1 ∧ q.1 < (off - b.localSize + len) / 4096)
  let aligned : Bool := va.toNat % 4096 == 0
  let canon : Prop := canonical va = true ∧ canonical (va + BitVec.ofNat 64 (len - 1)) = true
  let poison := g.poisonS r.a.toNat || g.poisonS r.c.toNat
  let pages := g.poisonS r.b.toNat || g.poisonS (r.b.toNat + 1)
  let ends (i : Instr) (st : Nat) (bad : Bool) (u : State) : Prop :=
    exec i s = .next (u.modGroup s.cur.key (fun h => h.setS r.d.toNat (BitVec.ofNat 32 st) bad)).advance
  let mapped (k : Block) : Block :=
    { k with stash := (List.range (len / 4096)).foldl (fun l i =>
        aput (first + i) { page := (va57 va + 4096 * i) % 2 ^ 57, w := xbit r 1 } l) k.stash }
  let unmapped (k : Block) : Block :=
    { k with
      stash := k.stash.filter (fun e => !(first ≤ e.1 && e.1 < first + len / 4096))
      stashFilled := k.stashFilled.filter (fun e => !(first ≤ e.1 / 64 && e.1 / 64 < first + len / 4096)) }
  (Issues (.stmap r) s g m →
    (¬ shaped aligned → ends (.stmap r) 1 (poison || pages) s) ∧
    (shaped aligned → ¬ inside → ends (.stmap r) 2 (poison || pages) s) ∧
    (shaped aligned → inside → ¬ canon → ends (.stmap r) 3 (poison || pages) s) ∧
    (shaped aligned → inside → canon → ¬ free → ends (.stmap r) 4 (poison || pages) s) ∧
    (shaped aligned → inside → canon → free → ends (.stmap r) 0 (poison || pages) (s.modBlock bn mapped))) ∧
  (Issues (.stunmap r) s g m →
    (¬ shaped true → ends (.stunmap r) 1 poison s) ∧
    (shaped true → ¬ inside → ends (.stunmap r) 2 poison s) ∧
    (shaped true → inside → ends (.stunmap r) 0 poison (s.modBlock bn unmapped)))

/-! ## Copy engines -/

/-- The words of the copy engines issue their operation (R189, R194 to R202): where the checks of R194 pass, a slot is free and no earlier
word waits for it, the operation stands at the end of the core's, with its slot and its number, the group's counter of its class is one
higher, its place among the groups that wait for a slot is given up, and the group's slot goes on; nothing else changes.
The operation that CPY makes (R195): from generic memory to generic memory without a barrier it holds the operands' values, where
they are unpoisoned and both ranges end in canonical addresses.
Where a check fails the word traps, in the order of its checks (R194): POISON with use 7, ENGINE with reason 1 for a descriptor that is refused
(R197, R201) and 2 for a destination of CPYT, BARRIER with reason 1, MEMORY with kind NONCANON or SCRBOUND and every ACTIVE lane unfinished; where none
fails, the operation holds the values of the operands. With no slot free the word waits, and an unsurfaced failure of its class surfaces (R208).
WAITC goes on once its class counts no more than its limit, and surfaces a failure that is reported, CPYQ reads the operation at its
position, CPYX cancels the operations of its classes and gives their number (R203 to R205). -/
def Obligations.EngineWords : Prop :=
  (∀ s g m (r : RWord) bn b, m ≠ 0 → g.blk = some bn → aget? bn s.blocks = some b →
  let n := (g.getS r.c.toNat).toNat
  let unallotted : Prop := xbit r 8 = true ∧ b.ntbar ≤ n
  let tb : Option Nat := if xbit r 8 then some n else none
  let barrier (i : Instr) : Prop := TrapsIn i s g (trap0 19 (BitVec.ofNat 32 (1 + 16 * (n % 256))) g.mask0)
  let refused (i : Instr) (reason kind : Nat) : Prop := TrapsIn i s g (trap0 11
    (BitVec.ofNat 32 (reason + (if 4 ≤ kind then 16 else 0) + 2 ^ 15 * kind + 2 ^ 18 * (g.gid % 32))) g.mask0)
  let mem (i : Instr) (kind : Nat) (wr : Bool) (a : DWord) : Prop := TrapsIn i s g
    { trap64 5 (BitVec.ofNat 32 (kind + 16 * lowLane m + (if wr then 512 else 0))) a m with unfin := m }
  (∀ i ∈ [Instr.cpy r, .cpyf r, .cpyt r], Issues i s g m → g.poisonS r.d.toNat = true → TrapsIn i s g (poisonTrap 7 r.d.toNat true m)) ∧
  (∀ i ∈ [Instr.gath r, .scat r], Issues i s g m → g.poisonS r.a.toNat = true → TrapsIn i s g (poisonTrap 7 r.a.toNat true m)) ∧
  ((∀ k, g.poisonS k = false) →
    (∀ q ∈ [(Instr.cpy r, 1), (.cpyf r, 3)], Issues q.1 s g m →
      let len := (g.getS r.b.toNat).toNat
      let dScr : Prop := xf r 6 2 = 1
      let sScr : Prop := xf r 4 2 = 1 ∧ q.2 = 1
      let d : DWord := if xf r 6 2 = 1 then (g.getS r.d.toNat).zeroExtend 64 else g.getS64 r.d.toNat
      let a : DWord := if xf r 4 2 = 1 ∧ q.2 = 1 then (g.getS r.a.toNat).zeroExtend 64 else g.getS64 r.a.toNat
      let last (x : DWord) : DWord := x + BitVec.ofNat 64 (len - 1)
      let dIn : Prop := len = 0 ∨ dScr ∨ (canonical d = true ∧ canonical (last d) = true)
      let aIn : Prop := len = 0 ∨ sScr ∨ q.2 = 3 ∨ (canonical a = true ∧ canonical (last a) = true)
      let dFits : Prop := len = 0 ∨ ¬ dScr ∨ d.toNat + len ≤ b.localSize
      let aFits : Prop := len = 0 ∨ ¬ sScr ∨ a.toNat + len ≤ b.localSize
      (unallotted → barrier q.1) ∧
      (¬ unallotted → ¬ dIn → mem q.1 1 true (if canonical d then last d else d)) ∧
      (¬ unallotted → dIn → ¬ aIn → mem q.1 1 false (if canonical a then last a else a)) ∧
      (¬ unallotted → dIn → aIn → ¬ dFits → mem q.1 6 true d) ∧
      (¬ unallotted → dIn → aIn → dFits → ¬ aFits → mem q.1 6 false a) ∧
      (¬ unallotted → dIn → aIn → dFits → aFits → ∃ o, linearOp q.2 r s g m = .ok o ∧ o.kind = q.2 ∧ o.gather = false ∧ o.dst = d ∧
        o.src = a ∧ o.len = len ∧ o.done = 0 ∧ o.tb = tb ∧ o.xop = r.xop ∧ o.patPoison = false)) ∧
    (Issues (.cpyt r) s g m →
      let par (k : Nat) : Nat := (g.getS (r.a.toNat + k)).toNat
      let cfg := par 2
      let nd := cfg / 4 % 8
      let es := 2 ^ (cfg % 4)
      let tr : Prop := cfg / 32 % 2 = 1
      let box (k : Nat) : Nat := (if k < 4 then par 13 / 2 ^ (8 * k) % 256 else par 14 % 256) + 1
      let bytes := es * (box 0 * box 1 * box 2 * box 3 * box 4)
      let span := 64 * 2 ^ (cfg / 64 % 4)
      let swz : Prop := cfg / 64 % 4 ≠ 0
      let bad : Prop := nd = 0 ∨ 5 < nd ∨ par 0 % 16 ≠ 0 ∨ (∃ k, k < nd ∧ k < 5 ∧ par (4 + k) = 0) ∨
        (∃ k, nd ≤ k ∧ k < 5 ∧ box k ≠ 1) ∨ cfg / 512 ≠ 0 ∨ par 14 / 256 ≠ 0 ∨ par 15 ≠ 0 ∨ (tr ∧ (es = 1 ∨ es = 8 ∨ nd = 1)) ∨
        (if cfg / 32 % 2 = 1 then box 1 else box 0) * es % 16 ≠ 0 ∨ (swz ∧ bytes % span ≠ 0)
      let d := (g.getS r.d.toNat).toNat
      let dBad : Prop := d % 16 ≠ 0 ∨ (swz ∧ d % span ≠ 0)
      let base := g.getS64 r.a.toNat
      (bad → refused (.cpyt r) 1 2) ∧ (¬ bad → dBad → refused (.cpyt r) 2 2) ∧ (¬ bad → ¬ dBad → unallotted → barrier (.cpyt r)) ∧
      (¬ bad → ¬ dBad → ¬ unallotted →
        (canonical base = false → mem (.cpyt r) 1 (xbit r 7) base) ∧
        (canonical base = true → b.localSize < d + bytes → mem (.cpyt r) 6 (!xbit r 7) (BitVec.ofNat 64 d)) ∧
        (canonical base = true → d + bytes ≤ b.localSize → ∃ o, tileOp r s g m = .ok o ∧ o.kind = 2 ∧ o.gather = false ∧
          o.dst.toNat = d ∧ o.len = bytes ∧ o.done = 0 ∧ o.tb = tb ∧ o.xop = r.xop ∧ (∀ k, k < 16 → o.par k = par k) ∧
          ∀ k, k < 5 → o.coord.getD k 0 = g.getS (r.b.toNat + k)))) ∧
    ∀ q ∈ [(Instr.gath r, 4), (.scat r, 5)], Issues q.1 s g m →
      let par (k : Nat) : Nat := (g.getS (r.a.toNat + k)).toNat
      let bad : Prop := par 0 % 16 ≠ 0 ∨ par 2 % 16 ≠ 0 ∨ par 3 < 16 ∨ 65536 < par 3 ∨ par 3 % 16 ≠ 0 ∨ par 4 % 4 ≠ 0 ∨ par 5 < 1 ∨
        65536 < par 5 ∨ par 6 % 16 ≠ 0 ∨ par 7 ≠ 0
      let base := g.getS64 r.a.toNat
      (bad → refused q.1 1 q.2) ∧ (¬ bad → unallotted → barrier q.1) ∧
      (¬ bad → ¬ unallotted →
        (canonical base = false → mem q.1 1 (q.2 == 5) base) ∧
        (canonical base = true → b.localSize < par 4 + 4 * par 5 → mem q.1 6 false (BitVec.ofNat 64 (par 4))) ∧
        (canonical base = true → par 4 + 4 * par 5 ≤ b.localSize → b.localSize < par 6 + par 5 * par 3 →
          mem q.1 6 (q.2 == 4) (BitVec.ofNat 64 (par 6))) ∧
        (canonical base = true → par 4 + 4 * par 5 ≤ b.localSize → par 6 + par 5 * par 3 ≤ b.localSize → b.localSize < 2 ^ 32 →
          ∃ o, gatherOp q.2 r s g m = .ok o ∧ o.kind = q.2 ∧ o.gather = true ∧ o.len = par 5 * par 3 ∧ o.done = 0 ∧ o.tb = tb ∧
            o.xop = r.xop ∧ ∀ k, k < 8 → o.par k = par k)))) ∧
  (∀ s g m (r : RWord) o k, m ≠ 0 → aget? g.core s.cores = some k → s.slotFor g.core s.cur.key o.gather = none →
  let waits (i : Instr) (checks : Res EngineOp) : Prop := Issues i s g m → checks = .ok o →
    (∀ f, (s.opsOf g.core s.cur.key o.gather).find? (fun x => x.state == 3) = some f → Surfaces i s g f g.mask0) ∧
    ((s.opsOf g.core s.cur.key o.gather).find? (fun x => x.state == 3) = none → exec i s = .next (({ s with
      cores := aput g.core { k with slotq := if k.slotq.contains (o.gather, s.cur.key) then k.slotq
        else k.slotq ++ [(o.gather, s.cur.key)] } s.cores } : State).waitAt (.engineSlot o.gather)))
  waits (.cpy r) (linearOp 1 r s g m) ∧ waits (.cpyf r) (linearOp 3 r s g m) ∧ waits (.cpyt r) (tileOp r s g m) ∧
    waits (.gath r) (gatherOp 4 r s g m) ∧ waits (.scat r) (gatherOp 5 r s g m)) ∧
  (∀ s g m (r : RWord) k o n, m ≠ 0 → aget? g.core s.cores = some k → s.slotFor g.core s.cur.key o.gather = some n →
  let o1 : EngineOp :=
    { o with id := k.opSeq, blk := g.blk, owner := g.gid, seq := (if o.gather then g.igath else g.icopy) % 65536, slot := some n }
  let k1 : Core := { k with ops := k.ops ++ [o1], opSeq := k.opSeq + 1, slotq := k.slotq.erase (o.gather, s.cur.key) }
  let counted : Group := if o.gather then { g with igath := g.igath + 1, cgath := g.cgath + 1 }
    else { g with icopy := g.icopy + 1, ccopy := g.ccopy + 1 }
  let issued (h : Group) : State := ({ s with cores := aput g.core k1 s.cores } : State).setGroup s.cur.key h
  let issues (i : Instr) (checks : Res EngineOp) : Prop := Issues i s g m → checks = .ok o →
    (o.len ≠ 0 → exec i s = .next (issued (counted.advance s.cur.slot1))) ∧
    (o.len = 0 → exec i s = .next ((issued counted).completeOp g.core o1).advance)
  issues (.cpy r) (linearOp 1 r s g m) ∧ issues (.cpyf r) (linearOp 3 r s g m) ∧ issues (.cpyt r) (tileOp r s g m) ∧
    issues (.gath r) (gatherOp 4 r s g m) ∧ issues (.scat r) (gatherOp 5 r s g m)) ∧
  (∀ s g m (r : RWord), xf r 0 9 = 0 → (∀ k, k < 64 → g.poisonS k = false) → r.d.toNat < 63 → r.a.toNat < 63 → r.b.toNat < 64 →
  let dst := g.getS64 r.d.toNat
  let src := g.getS64 r.a.toNat
  let len := (g.getS r.b.toNat).toNat
  0 < len → canonical dst = true → canonical src = true → canonical (dst + BitVec.ofNat 64 (len - 1)) = true →
    canonical (src + BitVec.ofNat 64 (len - 1)) = true →
  ∃ o, linearOp 1 r s g m = .ok o ∧ o.dst = dst ∧ o.src = src ∧ o.len = len ∧ o.done = 0 ∧ o.kind = 1 ∧ o.tb = none ∧ o.gather = false) ∧
  ∀ s g m (r : RWord), m ≠ 0 →
  (Issues (.waitc r) s g m → (xbit r 7 = true → g.poisonS r.a.toNat = false) →
    g.count (xbit r 8) ≤ (if xbit r 7 then (g.getS r.a.toNat).toNat else r.b.toNat) →
    (s.opsOf g.core s.cur.key (xbit r 8)).find? (fun o => o.state == 3 && o.reported) = none →
    exec (.waitc r) s = .next s.advance) ∧
  (Issues (.waitc r) s g m → (xbit r 7 = true → g.poisonS r.a.toNat = false) →
    let t := if xbit r 7 then (g.getS r.a.toNat).toNat else r.b.toNat
    (t < g.count (xbit r 8) → exec (.waitc r) s = .next (s.waitAt (.waitc (xbit r 8) t))) ∧
    ∀ o, g.count (xbit r 8) ≤ t → (s.opsOf g.core s.cur.key (xbit r 8)).find? (fun o => o.state == 3 && o.reported) = some o →
      Surfaces (.waitc r) s g o g.mask0) ∧
  (Issues (.cpyq r) s g m → g.poisonS r.a.toNat = false →
    let o := ((s.opsOf g.core s.cur.key (xbit r 8)).drop (g.getS r.a.toNat).toNat).head?
    Completes (.cpyq r) s g m { ud := true, d := r.d.toNat, vals :=
      [fun _ => BitVec.ofNat 32 (cpyqWord o (g.count (xbit r 8))), fun _ => BitVec.ofNat 32 ((o.map EngineOp.done).getD 0),
       fun _ => BitVec.ofNat 32 ((o.map EngineOp.len).getD 0),
       fun _ => BitVec.ofNat 32 (match o with | none => 0 | some x => x.slot.getD 0xFFFFFFFF)] }) ∧
  (Issues (.cpyx r) s g m →
    let sel := xf r 7 2
    let ops := (if sel % 2 = 1 then s.opsOf g.core s.cur.key false else []) ++ (if 2 ≤ sel then s.opsOf g.core s.cur.key true else [])
    let cleared (h : Group) : Group := { h with ccopy := if sel % 2 = 1 then 0 else h.ccopy, cgath := if 2 ≤ sel then 0 else h.cgath }
    exec (.cpyx r) s = .next ((ops.foldl (fun s o => s.cancelOp g.core o) s).modGroup s.cur.key (fun h =>
      (cleared h).setS r.d.toNat (BitVec.ofNat 32 ops.length) false)).advance)

/-! ## Barriers -/

/-- BAR counts an arrival (R176): the group waits at its barrier, and where the arrivals are the barrier's count, every group that waits
there goes on. A wrong count, or one that differs from the phase's, traps BARRIER. BAR and TBARR wait while a RED of the core is not performed
(R160).
The transaction-barrier words complete on a barrier of the block (R177 to R179): TBINIT sets it up, TBARR and TBEXP count and the
phase ends where nothing is pending, TBWAIT goes on past its phase and waits within it, TBTEST says whether the phase has ended, TBINV ends
the barrier; TBARR and TBINV wake exactly the groups of the block whose TBWAIT on that barrier goes on. They trap BARRIER, with the barrier's
number modulo 256, for the first reason that applies (R181): 1 for a barrier that is not allotted, 2 for an invalid one, 3 for one in error,
4 for an arrival too many, 5 for a valid one, 6 for a count or a sum out of range; a failed operation on the barrier surfaces at TBWAIT (R208). -/
def Obligations.BarrierWords : Prop :=
  (∀ s g m (r : RWord) bn b, Issues (.bar r) s g m → g.blk = some bn → aget? bn s.blocks = some b →
  let id := xf r 1 4
  let e := if xbit r 5 then (g.getS r.a.toNat).toNat else (s.liveGroups bn).length
  let x := (aget? id b.bars).getD { arrivals := 0, e, cnt := xbit r 5 }
  let bad : Prop := (xbit r 5 = true ∧ (e = 0 ∨ b.ngroup < e)) ∨
    (x.arrivals ≠ 0 ∧ (x.cnt ≠ xbit r 5 ∨ (xbit r 5 = true ∧ x.e ≠ e)))
  (bad → TrapsIn (.bar r) s g (trap0 19 (BitVec.ofNat 32 (7 + 16 * (id % 256))) g.mask0)) ∧
  (¬ bad → s.redsOut g.core = true → exec (.bar r) s = .next (s.waitAt .settle)) ∧
  (¬ bad → s.redsOut g.core = false →
    exec (.bar r) s = .next (((s.modBlock bn (fun k =>
      { k with bars := aput id { arrivals := x.arrivals + 1, e, cnt := xbit r 5 } k.bars })).modGroup s.cur.key (fun g =>
        { g with wait := .bar id })).settleBar bn id))) ∧
  ∀ s g m (r : RWord) bn b, m ≠ 0 → g.blk = some bn → aget? bn s.blocks = some b →
  let n := tbNum r g
  let t := b.tb n
  let x : Int := (g.getS r.b.toNat).toNat
  let c := (g.getS r.a.toNat).toNat
  let cur := g.mask s.cur.slot1
  let parity := (g.getS r.b.toNat).getLsbD 0
  let y := t.tx + (if xbit r 8 then x else 0)
  let sets (i : Instr) (u : Tb) : Prop := exec i s = .next (s.setTb bn n u).advance
  let puts (i : Instr) (u : Tb) : Prop := exec i s = .next (s.putTb bn n u).advance
  let traps (i : Instr) (reason : Nat) : Prop := TrapsIn i s g (trap0 19 (BitVec.ofNat 32 (reason + 16 * (n % 256))) cur)
  let checks (i : Instr) : Prop := Issues i s g m →
    (b.ntbar ≤ n → traps i 1) ∧ (n < b.ntbar → t.v = false → traps i 2) ∧ (n < b.ntbar → t.v = true → t.er = true → traps i 3)
  (checks (.tbexp r) ∧ checks (.tbtest r) ∧ (s.redsOut g.core = false → checks (.tbarr r)) ∧
    (Issues (.tbarr r) s g m → s.redsOut g.core = true → exec (.tbarr r) s = .next (s.waitAt .settle)) ∧
    (s.tbFailure g n = none → (∀ k, g.wait ≠ .tbwoken k) → (b.ntbar ≤ n → t.v = false) → checks (.tbwait r)) ∧
    (Issues (.tbwait r) s g m → s.tbFailure g n = none → ∀ k, k ≠ 0 → g.wait = .tbwoken k → traps (.tbwait r) k) ∧
    (Issues (.tbwait r) s g m → ∀ o, s.tbFailure g n = some o →
      o ∈ (s.core g.core).ops ∧ o.blk = some bn ∧ o.state = 3 ∧ o.tb = some n ∧ Surfaces (.tbwait r) s g o cur) ∧
    (∀ i ∈ [Instr.tbinit r, .tbinv r], Issues i s g m → b.ntbar ≤ n → traps i 1) ∧
    (n < b.ntbar →
      (Issues (.tbinit r) s g m → ((c = 0 ∨ 4095 < c) → traps (.tbinit r) 6) ∧ (0 < c → c ≤ 4095 → t.v = true → traps (.tbinit r) 5)) ∧
      (Issues (.tbarr r) s g m → s.redsOut g.core = false → t.v = true → t.er = false →
        (t.pend = 0 → traps (.tbarr r) 4) ∧ (t.pend ≠ 0 → txOk y = false → traps (.tbarr r) 6)) ∧
      (Issues (.tbexp r) s g m → t.v = true → t.er = false → txOk (t.tx + x) = false → traps (.tbexp r) 6))) ∧
  (∀ u key h parity, s.group? key = some h → h.blk = some bn → h.wait = .tbwait n parity → (s.putTb bn n u).group? key =
    some (if u.ph ≠ parity ∨ u.er = true ∨ u.v = false then
      { h with wait := .tbwoken (if u.v = false then 2 else if u.er then 3 else 0) } else h)) ∧
  (∀ u key h, s.group? key = some h → (h.blk ≠ some bn ∨ ∀ parity, h.wait ≠ .tbwait n parity) → (s.putTb bn n u).group? key = some h) ∧
  (n < b.ntbar →
  (Issues (.tbinit r) s g m → 0 < c → c ≤ 4095 → t.v = false →
    sets (.tbinit r) { v := true, ph := false, er := false, exp := c, pend := c, tx := 0 }) ∧
  (Issues (.tbarr r) s g m → s.redsOut g.core = false → t.v = true → t.er = false → t.pend ≠ 0 →
    txOk y = true → puts (.tbarr r) (if t.pend = 1 ∧ y = 0 then { t with ph := !t.ph, pend := t.exp, tx := 0 }
      else if t.pend = 1 ∧ y < 0 then { t with er := true, pend := 0, tx := y } else { t with pend := t.pend - 1, tx := y })) ∧
  (Issues (.tbexp r) s g m → t.v = true → t.er = false → txOk (t.tx + x) = true → sets (.tbexp r) { t with tx := t.tx + x }) ∧
  (Issues (.tbwait r) s g m → s.tbFailure g n = none → (∀ k, g.wait ≠ .tbwoken k) → t.v = true → t.er = false →
    (t.ph ≠ parity → exec (.tbwait r) s = .next s.advance) ∧
    (t.ph = parity → exec (.tbwait r) s = .next (s.waitAt (.tbwait n parity)))) ∧
  (Issues (.tbwait r) s g m → s.tbFailure g n = none → g.wait = .tbwoken 0 → exec (.tbwait r) s = .next s.advance) ∧
  (Issues (.tbtest r) s g m → t.v = true → t.er = false → Completes (.tbtest r) s g m
    { pred := some (r.d.toNat, if t.ph != parity then BitVec.allOnes 32 else 0) }) ∧
  (Issues (.tbinv r) s g m → (t.v = true → puts (.tbinv r) { t with v := false }) ∧ (t.v = false → exec (.tbinv r) s = .next s.advance)))

/-! ## Matrix words -/

/-- MMA, MZERO, MCVT and FSLOT complete where no enabled flag is raised (R217 to R225, R230 to R232): MMA writes the 32 elements of each
ACTIVE lane's row of C, MZERO zeros, MCVT the converted elements, FSLOT the slot's word; nothing else but the flags changes. -/
def Obligations.MatrixWords : Prop :=
  ∀ s g m (r : RWord),
  let fs := s.slotOf g (xf r 6 3)
  let h : Shape := { joint := false, scaled := false, fs }
  let x : Member := { key := s.cur.key, g, r, m }
  let e (l j : Nat) : Nat × Flags := matElem h [x] x l j
  let flags (l : Nat) : Flags := (List.range h.cols).foldl (fun f j => f ||| (e l j).2) 0
  let c (l k : Nat) : Nat × Flags := mcvtElem fs r g l k
  let cflags (l : Nat) : Flags := (List.range (mcvtN r)).foldl (fun f k => f ||| (c l k).2) 0
  let w := fmtWidth (fsAF fs)
  let per := 32 / w
  (IssuesWith (.mma r) s g m (slotBad slotMma r s g) [] → Quiet g false m flags → Completes (.mma r) s g m
    { d := r.d.toNat, flags := orFlagsOf m flags, vals := (List.range h.cols).map (fun j l => BitVec.ofNat 32 (e l j).1),
      poison := fun j => maskOf (fun l => matPoison h [x] x l j) }) ∧
  (Issues (.mzero r) s g m → Completes (.mzero r) s g m
    { d := r.d.toNat, vals := List.replicate (8 * 2 ^ xf r 0 2) (fun _ => 0) }) ∧
  (IssuesWith (.mcvt r) s g m (mcvtBad r s g) (mcvtRuns r s g) → Quiet g false m cflags → per * mcvtRegs r fs = mcvtN r →
    Completes (.mcvt r) s g m
    { d := r.d.toNat, flags := orFlagsOf m cflags,
      vals := (List.range (mcvtRegs r fs)).map (fun k l =>
        BitVec.ofNat 32 (((List.range per).map (fun j => (c l (per * k + j)).1 % 2 ^ w * 2 ^ (w * j))).sum)),
      poison := fun k => maskOf (fun l => (List.range per).any (fun j => (g.poisonV (r.a.toNat + per * k + j)).getLsbD l)) }) ∧
  (Issues (.fslot r) s g m → Completes (.fslot r) s g m
    { ud := true, d := r.d.toNat, vals := [fun _ => lo32 (BitVec.ofNat 64 fs), fun _ => hi32 (BitVec.ofNat 64 fs)] })

/-- MMAQ and MMAQS wait until the four members of the quad stand at joint words of one code and one slot number (R227); then all four
commit (R228): each member's rows of C and its flags, each slot past its word, and the quad's count of rounds one higher. -/
def Obligations.JointWords : Prop :=
  ∀ s g m (r : RWord) bn b, g.blk = some bn → aget? bn s.blocks = some b → 4 * (g.gid / 4) + 4 ≤ b.ngroup →
    (∀ k ∈ quadKeys bn (g.gid / 4), ∀ x, s.group? k = some x → x.state ≠ .ended) →
  let q := g.gid / 4
  let waits (i : Instr) : State := s.modGroup s.cur.key (fun g => { g with wait := .joint (wordOf i) })
  let joins (i : Instr) (scaled : Bool) : Prop :=
    ((quadKeys bn q).mapM (waits i).jointMember = none → exec i s = .next (waits i)) ∧
    ∀ l, (quadKeys bn q).mapM (waits i).jointMember = some l →
    (∀ e ∈ l, opField e.1 = opField (wordOf i) ∧ xf e.2.r 6 3 = xf r 6 3) →
    let ms := l.map Prod.snd
    let h : Shape := { joint := true, scaled, fs := (ms.map (fun x => (waits i).slotOf x.g (xf r 6 3))).headD 0 }
    (∀ x ∈ ms, trapLanes x.g x.m (rowFlags (matRows h ms x)) = 0) →
    exec i s = .next (ms.foldl (fun s x => s.setGroup x.key ((matCommit h ms x (matRows h ms x)).advance false))
      ((waits i).modBlock bn (fun k => { k with quadR := aset 0 q ((aval 0 q k.quadR + 1) % 4) k.quadR })))
  (IssuesWith (.mmaq r) s g m (slotBad slotMma r s g) [] → joins (.mmaq r) false) ∧
  (IssuesWith (.mmaqs r) s g m (slotBad slotMmaqs r s g) (mmaqsRuns r s g) → joins (.mmaqs r) true)

/-! ## Launch -/

/-- LAUNCH creates a grid (R251): where the group's own grid lies below depth 10, its record's registers are unpoisoned, the record can be
read and nothing refuses it, the child is created and D takes status 0 and its number; a record that is refused creates none, and D takes
the status. At depth 10 it traps LAUNCH, reason 1 (R255), and a poisoned register of its address traps POISON; it waits while a RED of the core
is not performed, or while its publish's bytes are not accepted (R160). -/
def Obligations.LaunchWord : Prop :=
  ∀ s g m (r : RWord) b parent, Issues (.launch r) s g m → m ≠ 0 → s.blockOf g = some b → s.gridOf b = some parent →
  (parent.depth = 10 → TrapsIn (.launch r) s g (trap0 22 161 g.mask0)) ∧
  (parent.depth ≠ 10 → g.poisonS r.a.toNat = true → TrapsIn (.launch r) s g (poisonTrap 4 r.a.toNat true m)) ∧
  (parent.depth ≠ 10 → g.poisonS r.a.toNat = false → g.poisonS (r.a.toNat + 1) = false →
    (s.redsOut g.core = true → exec (.launch r) s = .next (s.waitAt .settle)) ∧
    (s.redsOut g.core = false → (s.publish g.core).ownsOut g.core = true →
      exec (.launch r) s = .next ((s.publish g.core).waitAt .settle))) ∧
  ∀ d, parent.depth ≠ 10 → g.poisonS r.a.toNat = false → g.poisonS (r.a.toNat + 1) = false → s.redsOut g.core = false →
    (s.publish g.core).ownsOut g.core = false →
  let s1 := s.publish g.core
  let w := s1.whoCtx g.core b.ctxid
  let q := readRecord s1 w (g.getS64 r.a.toNat) (g.pend0.getD Pend.empty)
  recordCheck s1 w g (g.getS64 r.a.toNat) m = none → q.needs = [] → q.failed = none → q.s.rawDesc g.core b.ctxid = some d →
  let key := s.cur.key
  let gives (u : State) (st seq : Nat) : State := (u.modGroup key (fun g =>
    ((g.setS r.d.toNat (BitVec.ofNat 32 st) false).setS (r.d.toNat + 1) 0 false).setS64 (r.d.toNat + 2) (BitVec.ofNat 64 seq) false)).advance
  let st := q.s.launchStatus b.part b.ctxid d q.bytes q.poison
  let x := q.s.createGrid b.part b.ctxid d q.bytes (parent.depth + 1) (some (b.seq, b.linear, g.gid))
  (st = 0 → exec (.launch r) s = .next (gives x.1 0 x.2)) ∧ (st ≠ 0 → exec (.launch r) s = .next (gives q.s st 0))

/-- CWAIT collects children that have retired, with the first status that is not 0, and waits for those that live (R252); REGACQ and REGREL
change the group's allotment (R249, R253); GANGBAR arrives for its group, behind a release of device scope (R254). They trap LAUNCH (R255)
with reason 2 for a REGACQ above the role's full allotment, 3 for a REGREL below its prologue allotment, 4 for a GANGBAR in a grid without
gangs, and 5 for a CWAIT that names no uncollected child. -/
def Obligations.LaunchClassWords : Prop :=
  ∀ s g m (r : RWord) bn b, g.blk = some bn → aget? bn s.blocks = some b →
  let mine := s.children b g.gid
  let w := if xbit r 1 then mine.filter (fun x => x.seq == (g.getS64 r.a.toNat).toNat) else mine
  let st := ((w.find? (fun x => x.status != 0)).map Grid.status).getD 0
  (Issues (.cwait r) s g m → (xbit r 1 = true → w ≠ []) → (∀ x ∈ w, x.live = false) →
    exec (.cwait r) s = .next (((w.foldl (fun s x => s.modGrid x.part x.seq (fun y => { y with collected := true })) s).modGroup s.cur.key
      (fun h => h.setS r.d.toNat (BitVec.ofNat 32 st) false)).acquire g.core 2).advance) ∧
  (Issues (.cwait r) s g m → xbit r 1 = true → w = [] → TrapsIn (.cwait r) s g (trap0 22 5 g.mask0)) ∧
  (Issues (.cwait r) s g m → (∃ x ∈ w, x.live = true) → exec (.cwait r) s = .next (s.waitAt (.cwait (w.map Grid.seq)))) ∧
  (Issues (.regacq r) s g m → 8 * (s.roleOf b g.gid).fgran < regTarget r (s.roleOf b g.gid).fgran →
    TrapsIn (.regacq r) s g (trap0 22 2 g.mask0)) ∧
  (Issues (.regrel r) s g m → regTarget r (s.roleOf b g.gid).pgran < 8 * (s.roleOf b g.gid).pgran →
    TrapsIn (.regrel r) s g (trap0 22 3 g.mask0)) ∧
  (Issues .gangbar s g m → ((s.gridOf b).map Grid.gang).getD 0 = 0 → TrapsIn .gangbar s g (trap0 22 4 g.mask0)) ∧
  (Issues (.regacq r) s g m → regTarget r (s.roleOf b g.gid).fgran ≤ 8 * (s.roleOf b g.gid).fgran →
    regTarget r (s.roleOf b g.gid).fgran ≤ g.allot → exec (.regacq r) s = .next s.advance) ∧
  (∀ k, aget? g.core s.cores = some k → k.regq = [] → Issues (.regacq r) s g m →
    let n := regTarget r (s.roleOf b g.gid).fgran
    n ≤ 8 * (s.roleOf b g.gid).fgran → g.allot < n → s.cur.slot1 = false → s.grantable g.core s.cur.key n = true →
    ∃ t, exec (.regacq r) s = .next t ∧ t.mem = s.mem ∧ t.core g.core = k ∧ OnlyGroup s t ({ g with allot := n }.advance false)) ∧
  (Issues (.regrel r) s g m →
    let n := regTarget r (s.roleOf b g.gid).pgran
    8 * (s.roleOf b g.gid).pgran ≤ n →
    exec (.regrel r) s = .next (if n < g.allot then s.setGroup s.cur.key (g.shrink n) else s).advance) ∧
  (Issues .gangbar s g m → ((s.gridOf b).map Grid.gang).getD 0 ≠ 0 → s.redsOut g.core = true →
    exec .gangbar s = .next (s.waitAt .settle)) ∧
  (Issues .gangbar s g m → ((s.gridOf b).map Grid.gang).getD 0 ≠ 0 → s.redsOut g.core = false →
    (s.publish g.core).ownsOut g.core = true → exec .gangbar s = .next ((s.publish g.core).waitAt .settle)) ∧
  (Issues .gangbar s g m → ((s.gridOf b).map Grid.gang).getD 0 ≠ 0 → s.redsOut g.core = false →
    (s.publish g.core).ownsOut g.core = false → exec .gangbar s = .next ((((s.publish g.core).modBlock bn (fun k => { k with gangArrived := k.gangArrived + 1 })).modGroup s.cur.key
      (fun g => { g with wait := .gangbar })).settleGang bn))

/-! ## Tethers -/

/-- The binding words complete (R268 to R270): TREG binds an endpoint to a group of the caller's block, TFREE frees one that its grid has
bound and gives its count, TPERM edits its permission table, whichever of the three its operand names; each status is the first that
applies, and only a word of status 0 changes a record. -/
def Obligations.TetherBinding : Prop :=
  ∀ s g m (r : RWord) b, m ≠ 0 → s.blockOf g = some b → g.poisonS r.a.toNat = false → g.poisonS r.b.toNat = false →
    g.poisonS r.c.toNat = false →
  let d := (s.rawDesc g.core b.ctxid).getD (descOf 0 [])
  let e := (g.getS r.a.toNat).toNat
  let x := s.ep b.part d e
  let c := (g.getS r.b.toNat).toNat
  let o := (g.getS r.c.toNat).toNat
  let bad := c / 256 ≠ 0 ∨ b.ngroup ≤ c % 32 ∨ c / 32 % 4 = 3 ∨ (e = 63 ∧ c / 32 % 4 ≠ 0)
  (Issues (.treg r) s g m →
    (63 < e → exec (.treg r) s = .next (s.status r.d.toNat 6).advance) ∧
    (e ≤ 63 → bad → exec (.treg r) s = .next (s.status r.d.toNat 11).advance) ∧
    (e ≤ 63 → ¬ bad → x.st = 1 → exec (.treg r) s = .next (s.status r.d.toNat 7).advance) ∧
    (e ≤ 63 → ¬ bad → x.st ≠ 1 → exec (.treg r) s = .next (((s.setEp b.part d e
      { st := 1, cm := c / 32 % 4, wake := c / 128 % 2 == 1, hgrp := c % 32, pend := 0, ovf := 0, nperm := 0, gridseq := b.seq,
        block := b.linear, lastsnd := 0, payload := 0, perm := List.replicate 32 0 }).status r.d.toNat 0).advance))) ∧
  (Issues (.tfree r) s g m →
    (63 < e → exec (.tfree r) s = .next ((s.status r.d.toNat 6).status (r.d.toNat + 1) 0).advance) ∧
    (e ≤ 63 → x.ownedBy b.seq = false → exec (.tfree r) s = .next ((s.status r.d.toNat 8).status (r.d.toNat + 1) 0).advance) ∧
    (e ≤ 63 → x.ownedBy b.seq = true → exec (.tfree r) s = .next (((s.setEp b.part d e
      { x with st := 0, pend := 0, ovf := 0, payload := 0 }).status r.d.toNat 0).status (r.d.toNat + 1) x.pend).advance)) ∧
  ∀ i ∈ [Instr.tpermAdd r, .tpermRemove r, .tpermClear r], Issues i s g m →
    (63 ≤ e → exec i s = .next (s.status r.d.toNat 6).advance) ∧
    (e < 63 → (o / 16 ≠ 0 ∨ o % 4 = 3) → exec i s = .next (s.status r.d.toNat 11).advance) ∧
    (e < 63 → o < 16 → o % 4 ≠ 3 → x.ownedBy b.seq = false → exec i s = .next (s.status r.d.toNat 8).advance) ∧
    (e < 63 → o < 16 → o % 4 ≠ 3 → x.ownedBy b.seq = true →
      let q := permEdit (o % 4) (permEntry (g.getS r.b.toNat) (o / 4 % 2 == 1) (o / 8 % 2 == 1)) x
      exec i s = .next (if q.1 = 0 then (s.setEp b.part d e q.2).status r.d.toNat 0 else s.status r.d.toNat q.1).advance)

/-- TETHER traps (R284): a TWAIT whose set holds no endpoint that the caller handles has reason 1, a TRET outside an entry 2, a TRET at another
stack depth 3, a TMASK of a mask with a misaligned or non-canonical entry PC 5.
TSEND delivers to an endpoint of this chip with the status that Accept gives (R271, R272); to another chip the word waits for the
response and then gives its status. TPOLL and TWAIT take the lowest pending endpoint of their set (R275); TMASK replaces the mask and
the entry (R277); TRET ends an entry (R279). -/
def Obligations.TetherWords : Prop :=
  ∀ s g m (r : RWord) b, s.blockOf g = some b →
  let d := (s.rawDesc g.core b.ctxid).getD (descOf 0 [])
  let t := (g.getS r.a.toNat).toNat
  let e := (g.getS r.c.toNat).toNat
  let clean := g.poisonS r.a.toNat = false ∧ g.poisonS r.b.toNat = false ∧ g.poisonS (r.b.toNat + 1) = false ∧ g.poisonS r.c.toNat = false
  let cleanA := g.poisonS r.a.toNat = false ∧ g.poisonS (r.a.toNat + 1) = false
  let set := (s.epSet b d g.gid (g.getS64 r.a.toNat))
  let head := set.find? (fun e => (s.epHead b.part d e).pend != 0)
  (Issues (.tsend r) s g m → m ≠ 0 → clean →
    ((62 < e ∨ t / 2 ^ 30 ≠ 0) → exec (.tsend r) s = .next (tsendDone r m 6 s).advance) ∧
    (∀ s1, e ≤ 62 → t / 2 ^ 30 = 0 → (t / 65536 = 0x3FFF ∨ t / 65536 = s.chip) → s.release g b.ctxid 2 g.mask0 = .ok s1 →
      let q := s1.accept g.core (BitVec.ofNat 16 (t % 65536)) e (g.getS64 r.b.toNat) (senderId 0 s.chip b.ctxid.toNat)
      exec (.tsend r) s = .next (tsendDone r m q.1 q.2).advance) ∧
    (∀ s1, e ≤ 62 → t / 2 ^ 30 = 0 → t / 65536 ≠ 0x3FFF → t / 65536 ≠ s.chip →
      g.pend0.bind (fun p => aget? tsendKey p.landed) = none → s.release g b.ctxid 3 g.mask0 = .ok s1 →
      (s1.chipUp (s1.linkPart g.core b.ctxid) (t / 65536) = false → exec (.tsend r) s = .next (tsendDone r m 5 s1).advance) ∧
      (s1.chipUp (s1.linkPart g.core b.ctxid) (t / 65536) = true → exec (.tsend r) s =
        .next ((tsendPeer s1 g b (t / 65536) (t % 65536) e (g.getS64 r.b.toNat)).waitAt .none))) ∧
    (∀ p bytes poison, e ≤ 62 → t / 2 ^ 30 = 0 → t / 65536 ≠ 0x3FFF → t / 65536 ≠ s.chip → g.pend0 = some p →
      aget? tsendKey p.landed = some (bytes, poison) → exec (.tsend r) s = .next (tsendDone r m (leNat bytes) s).advance)) ∧
  (Issues (.twait r) s g m → m ≠ 0 → cleanA → set = [] → TrapsIn (.twait r) s g (trap0 20 1 g.mask0)) ∧
  (Issues (.tret r) s g m → m ≠ 0 → (g.inEntry = false → TrapsIn (.tret r) s g (trap0 20 2 g.mask0)) ∧
    (g.inEntry = true → g.depth ≠ g.sdepth → TrapsIn (.tret r) s g (trap0 20 3 g.mask0))) ∧
  (Issues (.tmask r) s g m → m ≠ 0 → cleanA → g.poisonS r.b.toNat = false → g.poisonS (r.b.toNat + 1) = false →
    g.getS64 r.a.toNat ≠ 0 → ((g.getS64 r.b.toNat).toNat % 8 ≠ 0 ∨ canonical (g.getS64 r.b.toNat) = false) →
    TrapsIn (.tmask r) s g (trap0 20 5 g.mask0)) ∧
  (Issues (.twait r) s g m → m ≠ 0 → cleanA → ∀ k, head = some k →
    exec (.twait r) s = .next (s.take g b d r.d.toNat k).advance) ∧
  (Issues (.twait r) s g m → m ≠ 0 → cleanA → set ≠ [] → head = none → s.cur.slot1 = false →
    exec (.twait r) s = .next (s.setGroup s.cur.key { g with wait := .twait (g.getS64 r.a.toNat) })) ∧
  (Issues (.tpoll r) s g m → m ≠ 0 → cleanA → exec (.tpoll r) s = .next (match head with
    | some k => s.take g b d r.d.toNat k
    | none => s.modGroup s.cur.key (fun h => (h.setS64 r.d.toNat 0 false).setS64 (r.d.toNat + 2) 0 false)).advance) ∧
  (Issues (.tmask r) s g m → m ≠ 0 → cleanA → g.poisonS r.b.toNat = false → g.poisonS (r.b.toNat + 1) = false →
    (g.getS64 r.a.toNat = 0 ∨ ((g.getS64 r.b.toNat).toNat % 8 = 0 ∧ canonical (g.getS64 r.b.toNat) = true)) →
    exec (.tmask r) s = .next (s.modGroup s.cur.key (fun h =>
      { h.setS64 r.d.toNat h.tmask false with tmask := g.getS64 r.a.toNat, entrypc := g.getS64 r.b.toNat })).advance) ∧
  (Issues (.tret r) s g m → m ≠ 0 → g.inEntry = true → g.depth = g.sdepth → exec (.tret r) s = .next (s.setGroup s.cur.key
    { (g.goTo false g.spc) with
      inEntry := false, mask0 := g.smask &&& g.live, wait := if g.arr = true ∧ g.smask &&& g.live ≠ 0 then g.arrWait else .none,
      arr := false, arrWait := .none, retry0 := g.sretry, sretry := Retry.none }))

/-! ## System calls, traps and the supervisor's words -/

/-- SYSCALL, TRAP and BKPT trap their ACTIVE lanes (R297, R300), with their operand in the trap's first detail word, and go on where none
is ACTIVE; SYSCALLB arrives for its group once the core's REDs are performed, and traps where its block's groups have called with differing
numbers (R298). -/
def Obligations.CallWords : Prop :=
  ∀ s g m (q : IWord),
  let ends (i : Instr) (t : Trap) : Prop := Issues i s g m →
    (m ≠ 0 → TrapsIn i s g t) ∧ (m = 0 → exec i s = .next (s.setGroup s.cur.key (g.advance s.cur.slot1)))
  ends (.syscall q) { cause := 16, w0 := q.imm, w1 := m, w2 := 0, lanes := m, unfin := 0 } ∧
  ends (.trapW q) { cause := 17, w0 := q.imm, w1 := 0, w2 := 0, lanes := m, unfin := 0 } ∧
  ends (.bkpt q) { cause := 8, w0 := q.imm, w1 := 0, w2 := 0, lanes := m, unfin := 0 } ∧
  ∀ bn b, g.blk = some bn → aget? bn s.blocks = some b → Issues (.syscallb q) s g m →
    (g.gid ∈ b.sysBad → exec (.syscallb q) s = .next ((s.modBlock bn (fun k => { k with sysBad := k.sysBad.erase g.gid })).takeTrapAt
      s.cur.key g s.cur.slot1 (g.pc s.cur.slot1) (trap0 19 10 g.mask0))) ∧
    (g.gid ∉ b.sysBad → s.redsOut g.core = true → exec (.syscallb q) s = .next (s.waitAt .settle)) ∧
    (g.gid ∉ b.sysBad → s.redsOut g.core = false → exec (.syscallb q) s = .next (((s.modBlock bn (fun k =>
      { k with sysArrived := aput g.gid q.imm.toNat k.sysArrived })).modGroup s.cur.key (fun g => { g with wait := .syscallb })).settleCall bn))

/-- HALT goes on where an entry or notice stands unpopped and waits where none does (R305); MQPOP takes the oldest notice, then the oldest
entry, holds it and loads its trap registers, and gives 0 where there is none (R301); the six forms of MQRPL answer a popped entry by the
action in S[B] and give its status (R302).
What a reply does with a popped mooring entry (R302): RETRY and NEXT free the handle and resume the group at its word or past it,
PARK frees it and leaves the group parked, RESUME lets a moored operation run, FAIL fails it, ACK frees a stall's handle or a notice's;
any other action on the entry gives status 2, and a handle that is not popped status 1, without effect. -/
def Obligations.MooringWords : Prop :=
  (∀ s g m (r : RWord), m ≠ 0 →
  let put (u : State) (l : List Word) : State := (u.modGroup s.cur.key (fun h => h.setRun r.d.toNat l)).advance
  (Issues (.halt r) s g m → s.unpopped g.core = true → exec (.halt r) s = .next s.advance) ∧
  (Issues (.halt r) s g m → s.unpopped g.core = false → exec (.halt r) s = .next (s.waitAt .halt)) ∧
  (∀ place n, Issues (.mqpop r) s g m → oldestPlace (s.core g.core).notices Notice.popped Notice.order = some (place, n) →
    exec (.mqpop r) s = .next (put ((s.modCore g.core (fun k => { k with notices := aput place { n with popped := true } k.notices })).loadPopped
      g.core Trap.none 0 false) (noticeWords place n))) ∧
  (∀ place e, Issues (.mqpop r) s g m → oldestPlace (s.core g.core).notices Notice.popped Notice.order = none →
    oldestPlace (s.core g.core).mq Moor.popped Moor.order = some (place, e) →
    let held := s.modCore g.core (fun k => { k with mq := aput place { e with popped := true } k.mq })
    (∀ x, e.kind = 1 → s.group? e.key = some x → exec (.mqpop r) s =
      .next (put (held.loadPopped g.core x.trap x.trapVpc x.trapSlot) (s.moorWords g.core place e))) ∧
    (∀ o, e.kind = 2 → e.op.bind (s.op? g.core) = some o → exec (.mqpop r) s =
      .next (put (held.loadPopped g.core o.moorTrap 0 false) (s.moorWords g.core place e))) ∧
    (e.kind = 3 → exec (.mqpop r) s = .next (put (held.loadPopped g.core Trap.none 0 false) (s.moorWords g.core place e)))) ∧
  (Issues (.mqpop r) s g m → oldestPlace (s.core g.core).notices Notice.popped Notice.order = none →
    oldestPlace (s.core g.core).mq Moor.popped Moor.order = none →
    exec (.mqpop r) s = .next (s.setGroup s.cur.key ((g.setS r.d.toNat 0 false).advance s.cur.slot1))) ∧
  ∀ i ∈ [Instr.mqrplRetry r, .mqrplNext r, .mqrplPark r, .mqrplResume r, .mqrplFail r, .mqrplAck r], Issues i s g m →
    let q := s.mqReply g.core (g.getS r.a.toNat).toNat (g.getS r.b.toNat).toNat
    exec i s = .next (q.2.status r.d.toNat q.1).advance) ∧
  ∀ (s : State) c h x,
  let e? := (aget? h (s.core c).mq).filter Moor.popped
  let n? := (aget? (h - 128) (s.core c).notices).filter Notice.popped
  (∀ e, h < 128 → e? = some e →
    (e.kind = 1 → x = 0 → s.mqReply c h x = (0, (s.resumeGroup e.key false).freeHandle c h)) ∧
    (e.kind = 1 → x = 1 → s.mqReply c h x = (0, (s.resumeGroup e.key true).freeHandle c h)) ∧
    (e.kind = 1 → x = 2 → s.mqReply c h x = (0, (s.modGroup e.key (fun g => { g with state := .released })).freeHandle c h)) ∧
    (∀ o, e.kind = 2 → x = 3 → e.op.bind (s.op? c) = some o →
      s.mqReply c h x = (0, (s.setOp c { o with state := 1, faddr := 0, fcode := 0 }).freeHandle c h)) ∧
    (∀ o k, k < 256 → e.kind = 2 → x = 4 + 256 * k → e.op.bind (s.op? c) = some o →
      s.mqReply c h x = (0, (s.failOp c o 3 k o.faddr).freeHandle c h)) ∧
    (e.kind = 3 → x = 5 → s.mqReply c h x = (0, s.freeHandle c h)) ∧
    (65536 ≤ x → s.mqReply c h x = (2, s)) ∧
    (e.kind = 1 → 3 ≤ x % 16 → s.mqReply c h x = (2, s))) ∧
  (h < 128 → e? = none → s.mqReply c h x = (1, s)) ∧
  (∀ n, 128 ≤ h → n? = some n → s.mqReply c h x = if x < 65536 ∧ x % 16 = 5 then (0, s.freeHandle c h) else (2, s)) ∧
  (128 ≤ h → n? = none → s.mqReply c h x = (1, s))

/-- VSRD and VSWR reach a word of a popped entry's group or block and give its status (R303): 1 for a stale handle or a kind without a group,
2 for an index beyond the record or the allotment, 3 for a write of a word that is not writable, which changes nothing, and else 0. The words
have the values of their layout (R313, R314); a written word reads back, without the bits that are ignored, and no other word of the record
changes but the poison of a written register, which is cleared. CSRRD reads a control register into the
ACTIVE lanes, CSRWR and WDPET write one (R304, R389). -/
def Obligations.ControlRegisterWords : Prop :=
  ∀ s g m (r : RWord) (q : IWord),
  (Issues (.vsrd r) s g m → m ≠ 0 →
    let x := s.vsRead g.core (g.getS r.a.toNat).toNat (g.getS r.b.toNat).toNat
    exec (.vsrd r) s = .next (x.2.modGroup s.cur.key (fun h =>
      (h.setS r.d.toNat x.1.1 false).setS (r.d.toNat + 1) (BitVec.ofNat 32 x.1.2) false)).advance) ∧
  (Issues (.vswr r) s g m → m ≠ 0 →
    let x := s.vsWrite g.core (g.getS r.a.toNat).toNat (g.getS r.b.toNat).toNat (g.getS r.c.toNat)
    exec (.vswr r) s = .next (x.2.status r.d.toNat x.1).advance) ∧
  (Issues (.csrrd q) s g m →
    Completes (.csrrd q) s g m { d := q.d.toNat, vals := [fun _ => s.csrRead g.core q.imm.toNat] }) ∧
  (Issues (.csrwr q) s g m → m ≠ 0 →
    exec (.csrwr q) s = .next (s.csrWrite g.core q.imm.toNat (g.getV q.a.toNat (lowLane m))).advance) ∧
  (Issues (.wdpet q) s g m → m ≠ 0 →
    exec (.wdpet q) s = .next (s.csrWrite g.core q.imm.toNat (g.getV q.a.toNat (lowLane m))).advance) ∧
  ∀ c h x w,
  let stale : Prop := s.vsRead c h x = ((0, 1), s) ∧ s.vsWrite c h x w = (1, s)
  (128 ≤ h → stale) ∧ (aget? h (s.core c).mq = none → stale) ∧
  ∀ e, h < 128 → aget? h (s.core c).mq = some e →
  ((e.popped = false ∨ (e.kind ≠ 1 ∧ e.kind ≠ 2) ∨ s.group? e.key = none) → stale) ∧
  ∀ g, e.popped = true → (e.kind = 1 ∨ e.kind = 2) → s.group? e.key = some g →
  let n := x % 2 ^ 22
  let beyond : Prop := s.vsRead c h x = ((0, 2), s) ∧ s.vsWrite c h x w = (2, s)
  let rd (v : Word) : Prop := s.vsRead c h x = ((v, 0), s)
  let ro : Prop := s.vsWrite c h x w = (3, s)
  (x / 2 ^ 22 % 512 ≠ 0 → beyond) ∧
  (x / 2 ^ 22 % 512 = 0 → x < 2 ^ 31 →
    (704 + g.allot ≤ n → (n < 960 ∨ 1024 + 32 * g.allot ≤ n) → beyond) ∧
    (inRecord g n →
      (∀ v, recordWord g n = some v → rd v) ∧
      ((n ∈ [6, 11] ∨ (16 ≤ n ∧ n ≤ 30) ∨ (32 ≤ n ∧ n < 64) ∨ (138 ≤ n ∧ n < 192) ∨ (960 ≤ n ∧ n < 1024)) → ro) ∧
      (vsWritable n → ∃ g', s.vsWrite c h x w = (0, s.setGroup e.key g') ∧
        recordWord g' n = some (w &&& (if n = 4 ∨ n = 5 then g.live else if n = 8 ∨ n = 9 then 0x1F else if n = 10 then 2
          else BitVec.allOnes 32)) ∧
        (∀ k, k ≠ n → inRecord g k → recordWord g' k = recordWord g k ∨ k = 136 ∨ k = 137 ∨ (704 ≤ k ∧ k < 960)) ∧
        (∀ k, k < 64 → g'.poisonS k = (if n = 64 + k then false else if n = 136 ∨ n = 137 then g'.poisonS k else g.poisonS k)) ∧
        ∀ k l, k < g.allot → k < 256 → l < 32 → (g'.poisonV k).getLsbD l =
          (if n = 1024 + 32 * k + l then false else if n = 704 + k then w.getLsbD l else (g.poisonV k).getLsbD l)) ∧
      (n = 7 → s.vsWrite c h x w = (0, s.setGroup e.key { g with held := w.extractLsb' 1 5 })) ∧
      (128 ≤ n → n < 136 → ∃ g', s.vsWrite c h x w = (0, s.setGroup e.key g') ∧ ∀ i l, i < 7 → l < 32 →
        (g'.getP i).getLsbD l = (if l / 4 = n - 128 then w.getLsbD (8 * (l % 4) + i) else (g.getP i).getLsbD l)) ∧
      (128 ≤ n → n < 136 → ∃ v, rd v ∧ ∀ i j, i < 8 → j < 4 → v.getLsbD (8 * j + i) = (g.getP i).getLsbD (4 * (n - 128) + j)) ∧
      (192 ≤ n → n < 704 → g.depth ≤ (n - 192) / 8 → ro ∧ (s.vsRead c h x).1.2 = 0) ∧
      ∀ t, 192 ≤ n → n < 704 → (n - 192) / 8 < g.depth → g.spill ≤ (n - 192) / 8 →
        g.stack[g.depth - 1 - (n - 192) / 8]? = some t →
        rd (BitVec.ofNat 32 (leNat ((t.bytes.drop (4 * ((n - 192) % 8))).take 4))))) ∧
  ∀ bn b, x / 2 ^ 22 % 512 = 0 → 2 ^ 31 ≤ x → x < 2 ^ 32 → g.blk = some bn → aget? bn s.blocks = some b →
    (s.blockHasWord bn b n = false → beyond) ∧ (s.blockHasWord bn b n = true → ro) ∧ (n < 1024 → s.blockHasWord bn b n = true) ∧
    (n = 0 → rd 0x4C424B31) ∧ (n = 2 → rd (lo32 (BitVec.ofNat 64 b.seq))) ∧ (n = 3 → rd (hi32 (BitVec.ofNat 64 b.seq))) ∧
    (n = 4 → rd (BitVec.ofNat 32 b.linear)) ∧ (n = 6 → rd (BitVec.ofNat 32 b.localSize)) ∧ (n = 7 → rd (BitVec.ofNat 32 b.stashSize))

/-- Control registers read as written (R289, R290): after a write of SVEC, SEPC, SCAUSE, SDETAIL, CTXBASE, SCALE and LINKTMO each reads
the value without its reserved bits, a reserved value leaves SCALE and LINKTMO as they were, and every register that the write does not
name reads as before. -/
def Obligations.ControlRegisters : Prop :=
  ∀ (s : State) c k p (x : Word), aget? c s.cores = some k → aget? k.part s.parts = some p →
  (∀ n ∈ [2, 3, 4, 6, 7, 8, 0x21], (s.csrWrite c n x).csrRead c n = x) ∧
  (s.csrWrite c 0 x).csrRead c 0 = x &&& 1 ∧ (s.csrWrite c 1 x).csrRead c 1 = x &&& ~~~7 ∧ (s.csrWrite c 5 x).csrRead c 5 = x &&& 31 ∧
  (s.csrWrite c 0x20 x).csrRead c 0x20 = x &&& ~~~0xFFF ∧
  (s.csrWrite c 0x22 x).csrRead c 0x22 = (if x.toNat % 8 ≤ 4 then BitVec.ofNat 32 (x.toNat % 8) else s.csrRead c 0x22) ∧
  (s.csrWrite c 0x23 x).csrRead c 0x23 =
    (if 1 ≤ x.toNat % 1024 ∧ x.toNat % 1024 ≤ 1000 then BitVec.ofNat 32 (x.toNat % 1024) else s.csrRead c 0x23) ∧
  ∀ n j, n ≠ j → (s.csrWrite c n x).csrRead c j = s.csrRead c j

/-- SWAPOUT completes in its three modes (R308), with status 1 for an empty slot, 2 for a block whose handle is held, 3 for a reserved
mode, and 0 with the block swapped out once its accesses are settled and its publish's writes acknowledged, for which the word waits; a gang's
other members are asked to follow (R244). SWAPIN restores the block that its notice promises, or loses one whose record does not match
(R309); HQPUT puts a message into the host service queue (R310).
What a swap-out lays out, a swap-in restores (R314, R315): the words that it saves at consecutive places stand there, and a group record whose
bytes are a group's words gives back its registers, predicates and poison, its masks and PCs, its flags and modes, its tether and trap fields
and its entries on chip. -/
def Obligations.SwapWords : Prop :=
  (∀ (s : State) part (a : DWord) k n (f : Nat → Option Word) pa,
    (∀ i, i < 4 * n → s.ctx0Addr part (a + BitVec.ofNat 64 (4 * k + i)) true = .ok (pa + i)) →
    let t := s.saveWords part a k n f
    (∀ i, i < 4 * n → t.ctx0Addr part (a + BitVec.ofNat 64 (4 * k + i)) false = .ok (pa + i)) →
    ∀ j, j < n → t.imgNat { part, at' := a } (4 * (k + j)) 4 = ((f (k + j)).getD 0).toNat) ∧
  (∀ (s t : State) (i : Image) (pa core bn gid role : Nat) old (g : Group), g.allot % 8 = 0 → g.allot ≤ 256 → g.depth ≤ 64 →
    g.spill ≤ g.depth → g.stack.length = g.depth - g.spill → g.trap.cause < 32 → i.at'.toNat % 1024 = 0 → pa % 1024 = 0 →
    let size := 4096 + 128 * g.allot
    (∀ o, o < size → o % 1024 = 0 → s.ctx0Addr i.part (i.at' + BitVec.ofNat 64 o) false = .ok (pa + o)) →
    (∀ q ∈ s.memPoison, q < pa / 64 ∨ (pa + size) / 64 ≤ q) →
    (∀ n v, inRecord g n → t.groupWordAt g n = some v → ∀ j, j < 4 → s.readPhys (pa + 4 * n + j) = v.extractLsb' (8 * j) 8) →
    let h := s.loadGroup i core bn gid role old
    (∀ k l, k < g.allot → l < 32 → h.getV k l = g.getV k l) ∧ (∀ k, k < g.allot → h.poisonV k = g.poisonV k) ∧
    (∀ k, k < 64 → h.getS k = g.getS k) ∧ h.sPoison = g.sPoison ∧ (∀ k, k < 8 → h.getP k = g.getP k) ∧
    h.pc0 = g.pc0 ∧ h.pc1 = g.pc1 ∧ h.mask0 = g.mask0 ∧ h.mask1 = g.mask1 ∧ h.live = g.live ∧ h.run1 = g.run1 ∧ h.held = g.held ∧
    h.allot = g.allot ∧ h.depth = g.depth ∧ h.spill = g.spill ∧ h.stack = g.stack ∧ h.fpflags = g.fpflags ∧ h.fpmode = g.fpmode ∧
    h.arithmode = g.arithmode ∧ h.tmask = g.tmask ∧ h.entrypc = g.entrypc ∧ h.spc = g.spc ∧ h.smask = g.smask ∧ h.inEntry = g.inEntry ∧
    h.arr = g.arr ∧ h.wake = g.wake ∧ h.trap = g.trap ∧ h.trapVpc = g.trapVpc ∧ h.trapSlot = g.trapSlot) ∧
  ∀ s g m (r : RWord), m ≠ 0 →
  let c := g.core
  let a := (g.getS r.a.toNat).toNat
  let mode := (g.getS r.b.toNat).toNat
  let gives (i : Instr) (u : State) (st : Nat) : Prop := exec i s = .next (u.status r.d.toNat st).advance
  (∀ i ∈ [Instr.swapoutReturn r, .swapoutStop r, .swapoutDiscard r], Issues i s g m →
    (s.blockInSlot c a = none → gives i s 1) ∧
    ∀ bn b, s.blockInSlot c a = some (bn, b) →
      (s.heldHandle c bn = true → gives i s 2) ∧
      (s.heldHandle c bn = false → 2 < mode → gives i s 3) ∧
      (s.heldHandle c bn = false → mode ≤ 2 →
        let s1 := s.modBlock bn (fun k => { k with stopped := true })
        (s1.blockBusy bn = true → exec i s = .next (s1.waitAt (.drain bn))) ∧
        (s1.blockBusy bn = false → (s1.publish c).postedOut c b.ctxid = true →
          exec i s = .next ((s1.publish c).waitAt (.posted b.ctxid.toNat))) ∧
        ∀ b2, s1.blockBusy bn = false → (s1.publish c).postedOut c b.ctxid = false → aget? bn (s1.publish c).blocks = some b2 →
          gives i (((s1.publish c).swapOut bn b2 mode).followGang b2 mode) 0)) ∧
  (Issues (.swapin r) s g m →
    let n := if a < 128 then none else (aget? (a - 128) (s.core c).notices).filter (fun n => n.popped && n.kind == 5)
    (n.bind Notice.blk = none → gives (.swapin r) s 1) ∧
    ∀ bn x gr, n.bind Notice.blk = some bn → aget? bn (s.core c).reserve = some x → s.grid? x.part x.seq = some gr →
      let img : Image := { part := x.part, at' := x.entry.recAddr }
      (s.recordOk img x.seq = true → gives (.swapin r) (s.swapIn c bn x gr) 0) ∧
      (s.recordOk img x.seq = false → gives (.swapin r)
        (((s.modCore c (fun k => { k with reserve := adel bn k.reserve })).takeFree 1).loseBlock
          (s.loadBlock img c x.slot gr x.entry.linear false) (Config.freeNat s.freeCtr) c) 2)) ∧
  (∀ l, Issues (.hqput r) s g m → (g.getS64 r.a.toNat).toNat % 64 = 0 →
    (s.publish c).ctx0Read (s.core c).part (g.getS64 r.a.toNat) 64 = .ok l →
    let q := (s.publish c).hsqPut (s.core c).part l
    gives (.hqput r) q.2 q.1)

/-- SIGPOST posts a user signal, STOP, CONT and KILL to the context that S[A] names (R311), whichever of its forms the signal in S[B]
chooses; KILL stops the context's blocks and waits for the accesses that it must see performed before the rest is done: then no grid of the
context lives, and none of its blocks, lowered units, breakpoints, doorbells and regions is left. PREEMPT takes and releases cores (R312): it
gives status 1 for a partition that does not exist, 2 for a count or a hold class out of range, 3 for a request that does not stand, and else
0, with a request's cores held under its class, and a released request's cores free of it. -/
def Obligations.SignalWords : Prop :=
  (∀ (s : State) (ctxid : BitVec 16) d bn b, aget? bn (s.killStop ctxid d).blocks = some b → b.part = d.part → b.ctxid = ctxid →
    b.stopped = true) ∧
  (∀ (s : State) c (ctxid : BitVec 16) d,
    let t := s.killCtx c ctxid d
    (∀ e ∈ t.grids, e.2.part = d.part → e.2.ctxid = ctxid → e.2.live = false ∧ e.2.killed = true ∧ e.2.returns = []) ∧
    (∀ e ∈ t.blocks, ¬ (e.2.part = d.part ∧ e.2.ctxid = ctxid)) ∧ (∀ u ∈ t.units, ¬ (u.part = d.part ∧ u.asid.toNat = d.asid)) ∧
    (∀ n, n < 4 → aget? (bpKey d.part d.asid n) t.breakpoints = none) ∧ (∀ e ∈ t.doorbells, e.2.ctxid ≠ ctxid) ∧
    ∀ r ∈ t.regions, r.ctxid ≠ ctxid) ∧
  (∀ (s : State) x rel,
    let n := x % 256
    let hold := x / 256 % 8
    let part := x / 4096 % 8
    let p := s.part part
    (s.parts.length ≤ part → s.preempt x rel = (1, 0, s)) ∧
    (part < s.parts.length → x / 32768 % 2 = 1 →
      ((∀ q ∈ p.preempts, q.id ≠ rel) → s.preempt x rel = (3, 0, s)) ∧
      ((∃ q ∈ p.preempts, q.id = rel) → ∃ t, s.preempt x rel = (0, 0, t) ∧ (∀ q ∈ (t.part part).preempts, q.id ≠ rel) ∧
        ∀ c k, aget? c t.cores = some k → k.part = part → ∀ q ∈ k.hold, q.1 ≠ rel)) ∧
    (part < s.parts.length → x / 32768 % 2 = 0 →
      ((n = 0 ∨ (s.healthy part).length < n ∨ hold = 0) → s.preempt x rel = (2, 0, s)) ∧
      (n ≠ 0 → n ≤ (s.healthy part).length → hold ≠ 0 → (aget? part s.parts).isSome = true → (∀ e ∈ s.grids, e.2.prio ≤ 7) → ASorted s.cores →
        ∃ t, ∃ l : List Nat, s.preempt x rel = (0, p.nextReq, t) ∧ l.length = n ∧ (∀ c ∈ l, c ∈ s.healthy part ∧ (p.nextReq, hold) ∈ (t.core c).hold) ∧
          (t.part part).nextReq = p.nextReq + 1))) ∧
  ∀ s g m (r : RWord), m ≠ 0 →
  let c := g.core
  let a := (g.getS r.a.toNat).toNat
  let x := (g.getS r.b.toNat).toNat
  let id := BitVec.ofNat 16 a
  let gives (i : Instr) (u : State) (st : Nat) : Prop := exec i s = .next (u.status r.d.toNat st).advance
  (∀ i ∈ [Instr.sigpostUser r, .sigpostStop r, .sigpostCont r, .sigpostKill r], Issues i s g m →
    ((65536 ≤ a ∨ s.desc c id = none) → gives i s 1) ∧
    ∀ d, a < 65536 → s.desc c id = some d →
      (x < 64 → gives i (s.userSignal c id x) 0) ∧ (x = 64 → gives i (s.stopCtx c id d) 0) ∧ (x = 65 → gives i (s.contCtx c id d) 0) ∧
      (66 < x → gives i s 2) ∧
      (x = 66 →
        let s1 := s.killStop id d
        (s1.killTags id d = [] → gives i (s1.killCtx c id d) 0) ∧
        (s1.killTags id d ≠ [] → exec i s = .next (s1.waitAt (.tags (s1.killTags id d)))))) ∧
  ∀ i ∈ [Instr.preempt r, .preemptRelease r], Issues i s g m →
    let q := s.preempt a x
    exec i s = .next ((q.2.2.status r.d.toNat q.1).status (r.d.toNat + 1) q.2.1).advance

/-- PTINV removes the translations of its range, ASID or partition from every core of the partition, after its release (R336): where link
accesses are outstanding it waits for them past its word. TCINV removes the lowered code of its range (R352); TCPIN pins and unpins code, and
lowers the start of its range (R354). Each gives its status, and a status that is not 0 leaves everything else. After a removal no core of the
partition holds a permission entry that qualifies by its ASID, or as a global one, and whose page meets the range, and the partition has no
lowered unit of the ASID that holds a word of the code range. -/
def Obligations.InvalidateWords : Prop :=
  (∀ (s : State) part c (r : InvRange) unmap c2 k, aget? c2 (s.invalidate part c r unmap).cores = some k → k.part = part → ∀ e ∈ k.perm,
    ¬ ((r.mode = 2 ∨ (e.glob = true ∧ r.glb = true) ∨ (e.glob = false ∧ e.asid = r.asid)) ∧
      (r.mode ≠ 0 ∨ (e.va / 2 ^ e.bits * 2 ^ e.bits < r.lo + r.len ∧ r.lo < e.va / 2 ^ e.bits * 2 ^ e.bits + 2 ^ e.bits)))) ∧
  (∀ (s : State) part asid (start : DWord) len, ∀ u ∈ (s.dropCode part asid start len).units,
    ¬ (u.part = part ∧ u.asid.toNat = asid ∧ u.entry.toNat < start.toNat + len ∧ start.toNat < u.entry.toNat + 8 * u.words.length)) ∧
  ∀ s g m (r : RWord), m ≠ 0 →
  let gives (i : Instr) (u : State) (st : Nat) : Prop := exec i s = .next (u.status r.d.toNat st).advance
  let ctl := (g.getS r.a.toNat).toNat
  let st := invStatus ctl (g.getS64 r.b.toNat) (g.getS r.c.toNat).toNat
  let part := (s.core g.core).part
  (∀ i ∈ [Instr.ptinvRange r, .ptinvAsid r, .ptinvPartition r], Issues i s g m →
    (st ≠ 0 → gives i s st) ∧
    (st = 0 → s.redsIn part = true → exec i s = .next (s.waitAt .none)) ∧
    ∀ s0, st = 0 → s.redsIn part = false → s.release g 0 2 g.mask0 = .ok s0 →
      let s1 := s0.invalidate part g.core (invRange ctl (g.getS64 r.b.toNat) (g.getS r.c.toNat).toNat) (ctl / 2 ^ 18 % 2 = 1)
      (s1.openTags part = [] → gives i s1 0) ∧
      (s1.openTags part ≠ [] → exec i s = .next ((s1.status r.d.toNat 0).advance.waitAt (.tags (s1.openTags part))))) ∧
  (g.poisonS r.a.toNat = false → g.poisonS (r.a.toNat + 1) = false → g.poisonS r.b.toNat = false →
    let start := g.getS64 r.a.toNat
    let len := (g.getS r.b.toNat).toNat
    let w := s.whoGroup g
    let c := (g.getS r.c.toNat).toNat
    let p : Pin := { asid := BitVec.ofNat 16 c, start, len }
    let x := s.pinStatus part p c
    (Issues (.tcinv r) s g m →
      (codeStatus start len ≠ 0 → gives (.tcinv r) s (codeStatus start len)) ∧
      ∀ s1, codeStatus start len = 0 → s.release g w.ctxid 2 (g.mask s.cur.slot1) = .ok s1 →
        gives (.tcinv r) (s1.dropCode w.part w.asid start len) 0) ∧
    ∀ i ∈ [Instr.tcpin r, .tcpinUnpin r], Issues i s g m →
      (x ≠ 0 → gives i s x) ∧
      (x = 0 → c / 65536 = 1 → gives i (s.pin part p true) 0) ∧
      (x = 0 → c / 65536 ≠ 1 → s.whoAsid g.core (c % 65536) = none → gives i (s.pin part p false) 0) ∧
      ∀ v u, x = 0 → c / 65536 ≠ 1 → s.whoAsid g.core (c % 65536) = some v →
        s.lowerAt v start ((g.pendOf s.cur.slot1).getD Pend.empty) = (u, none) → gives i (u.pin part p false) 0)

/-! ## Debug, trace, hints, retired words -/

/-- TRACE and MARK append their record where the context is traced and do nothing else where it is not (R364); WPSET and WPCLR set and
clear comparators and breakpoints with their status (R360, R362): 1 for a control word that is refused, 2 for a range or a PC that it
refuses, 3 for a comparator armed for another ASID, and else 0, with the comparator or breakpoint as the word gives it; PERFRD reads a counter,
and all ones where its item names none or is not the caller's to read (R365). -/
def Obligations.DebugWords : Prop :=
  (∀ (s : State) g k (start : DWord) len ctl (lanes : Mask), aget? g.core s.cores = some k →
    let own := (s.whoGroup g).asid
    let asid := if ctl / 64 % 2 = 1 then ctl / 2 ^ 16 else own
    let bad : Prop := ctl / 128 % 512 ≠ 0 ∨ (ctl / 8 % 2 = 0 ∧ ctl / 16 % 4 = 0) ∨ (ctl / 8 % 2 = 1 ∧ ctl / 4 % 2 = 1) ∨
      (ctl / 64 % 2 = 1 ∧ g.isSup = false) ∨ (ctl / 64 % 2 = 0 ∧ ctl / 2 ^ 16 ≠ 0)
    let bp : Prop := ctl / 8 % 2 = 1
    let range : Prop := len ≠ 0 ∧ canonical start = true ∧ start.toNat + len ≤ 2 ^ 64 ∧ canonical (start + BitVec.ofNat 64 (len - 1)) = true
    let busy : Prop := ∃ x, aget? (ctl % 8) k.comps = some x ∧ x.asid.toNat ≠ asid
    let key := bpKey k.part asid (ctl % 4)
    (bad → s.wpSet g start len ctl lanes = (1, s) ∧ s.wpClr g ctl = (1, s)) ∧
    (¬ bad → bp →
      ((canonical start = false ∨ start.toNat % 8 ≠ 0) → s.wpSet g start len ctl lanes = (2, s)) ∧
      (canonical start = true → start.toNat % 8 = 0 → ∃ t, s.wpSet g start len ctl lanes = (0, t) ∧
        aget? key t.breakpoints = some { pc := start, ctl := BitVec.ofNat 32 ctl } ∧
        ∀ x, x ≠ key → aget? x t.breakpoints = aget? x s.breakpoints) ∧
      ∃ t, s.wpClr g ctl = (0, t) ∧ aget? key t.breakpoints = none ∧ ∀ x, x ≠ key → aget? x t.breakpoints = aget? x s.breakpoints) ∧
    (¬ bad → ¬ bp →
      (¬ range → s.wpSet g start len ctl lanes = (2, s)) ∧
      (range → busy → s.wpSet g start len ctl lanes = (3, s)) ∧
      (range → ¬ busy → s.wpSet g start len ctl lanes = (0, s.modCore g.core (fun k =>
        { k with comps := aput (ctl % 8) { start, len, lanes, ctl := BitVec.ofNat 32 ctl, asid := BitVec.ofNat 16 asid } k.comps }))) ∧
      (busy → s.wpClr g ctl = (3, s)) ∧
      (¬ busy → s.wpClr g ctl = (0, s.modCore g.core (fun k => { k with comps := adel (ctl % 8) k.comps }))))) ∧
  (∀ (s : State) g x,
    let item := x % 64
    let bad : Prop := x / 64 % 4 ≠ 0 ∨ 512 ≤ x ∨ (16 < item ∧ item < 32) ∨ 48 < item ∨ (x / 256 % 2 = 1 ∧ g.isSup = false)
    (bad → s.perfRead g x = BitVec.allOnes 64) ∧
    (¬ bad → x / 256 % 2 = 1 → s.perfRead g x = aval 0 item (s.core g.core).totals) ∧
    ∀ b, ¬ bad → x / 256 % 2 = 0 → s.blockOf g = some b → s.perfRead g x = aval 0 item b.bins) ∧
  ∀ s g m (r : RWord) (q : IWord), m ≠ 0 →
  (Issues (.trace r) s g m → exec (.trace r) s = .next (if s.tracing g then s.traceAppend g.core (fun drop =>
      traceBytes s.tick g.pc0 (s.ctxOf g) g.core (traceGroup g (g.poisonSRun r.a.toNat 2)) (2 ^ 30 + 2 ^ 24 * min drop 63 + r.xop.toNat)
        (g.getS r.a.toNat).toNat (g.getS (r.a.toNat + 1)).toNat) else s).advance) ∧
  (Issues (.mark q) s g m → exec (.mark q) s = .next (if s.tracing g then s.traceAppend g.core (fun drop =>
      traceBytes s.tick g.pc0 (s.ctxOf g) g.core (traceGroup g false) (2 ^ 31 + q.imm.toNat % 2 ^ 24) (min drop (2 ^ 32 - 1)) 0)
    else s).advance) ∧
  (∀ i ∈ [Instr.wpset r, .wpsetBp r], Issues i s g m → (∀ k, k < 64 → g.poisonS k = false) → r.a.toNat < 63 → r.b.toNat < 64 →
    r.c.toNat < 63 →
    let x := s.wpSet g (g.getS64 r.a.toNat) (g.getS r.b.toNat).toNat (g.getS r.c.toNat).toNat (g.getS (r.c.toNat + 1))
    exec i s = .next (x.2.status r.d.toNat x.1).advance) ∧
  (∀ i ∈ [Instr.wpclr r, .wpclrBp r], Issues i s g m → g.poisonS r.a.toNat = false →
    let x := s.wpClr g (g.getS r.a.toNat).toNat
    exec i s = .next (x.2.status r.d.toNat x.1).advance) ∧
  (Issues (.perfrd r) s g m → g.poisonS r.a.toNat = false → exec (.perfrd r) s = .next ((s.takeFree (if g.isSup then 2 else 0)).modGroup
    s.cur.key (fun h => h.setS64 r.d.toNat (s.perfRead g (g.getS r.a.toNat).toNat) false)).advance)

/-- A hint does no more than R52 allows: it writes its value, unpoisoned, to a lane register below the allotment in its ACTIVE lanes, or to a
uniform register, or to nothing, never traps, and goes on; nothing else of the group and no byte of memory changes. HPRI sets the group's
hint level and gives the previous one; HLIVE and a code that the device does not implement give 0, HQLEN the free slots, and HLOC all ones or
the stack of the line that the last-level cache holds, by a free value (R53, R54; DESIGN CHOICE, log 5). -/
def Obligations.HintWords : Prop :=
  ∀ s g (r : RWord) (code : BitVec 6), s.group? s.cur.key = some g →
  let m := g.active s.cur.slot1 r.pg.toNat r.pn
  let gives (f : Nat → Word) : Writes :=
    if r.xop.toNat % 4 = 1 ∧ r.d.toNat < g.allot then { d := r.d.toNat, vals := [f] }
    else if r.xop.toNat % 4 = 2 ∧ r.d.toNat < 64 then { ud := true, d := r.d.toNat, vals := [f] } else {}
  let does (i : Instr) (t : State) (g0 : Group) (f : Nat → Word) : Prop := (s.cur.slot1 = true → stopsSlot1 (wordOf i) = false) →
    CompletesFrom i s t g0 m (gives f)
  does (.hpri r) s (if m = 0 then g else { g with hint := r.xop.toNat / 4 % 4 == 1 }) (fun _ => if g.hint then 1 else 0) ∧
    does (.hlive r) s g (fun _ => 0) ∧ does (.hqlen r) s g (fun _ => BitVec.ofNat 32 (s.freeSlots g.core (r.xop.getLsbD 2))) ∧
    does (.hintUnimplemented code r) s g (fun _ => 0) ∧
    ∃ f, does (.hloc r) (if m = 0 then s else s.takeFree 32) g f ∧ ∀ l, f l = BitVec.allOnes 32 ∨
      (r.a.toNat / 2 * 2 + 1 < g.allot ∧ f l = s.locStack (s.whoGroup g) (g.src64 (r.a.toNat / 2 * 2) false l))

/-- A retired word traps RETIRED with ACTIVE in TRAPLANES, even where ACTIVE is empty (R55, R57); a word that is no instruction traps
PRIVILEGE where its opcode is privileged and the group is a user's, and else ILLEGAL with the least of the reasons that hold: its own, that
of its format slot, and 9 where its code is forbidden to the supervisor (R51, R57, R59, R295). -/
def Obligations.RetiredAndIllegalWords : Prop :=
  ∀ s g (r : RWord) (q : MWord), s.group? s.cur.key = some g →
  (∀ i ∈ [Instr.fdiva r, .imad24 r, .hsel2Ll r, .hsel2Lh r, .hsel2Hl r, .hsel2Hh r, .ldnc q, .cvth4 r, .votex r],
    (s.cur.slot1 = true → stopsSlot1 (wordOf i) = false) →
    TrapsIn i s g (trap64 2 (BitVec.ofNat 32 (opField (wordOf i))) (wordOf i) (g.active s.cur.slot1 (guardOf i).1 (guardOf i).2))) ∧
  ∀ w reason h0 h1, (s.cur.slot1 = true → stopsSlot1 w = false) →
    (s.cur.slot1 = true ∨ g.inEntry = true ∨ g.divided = false ∨ slot0Waits w = false) →
    let cur := g.mask s.cur.slot1
    let barred : Prop := w.getLsbD 63 = false ∧ g.isSup = false ∧ privileged (opField w) = true
    let reasons := reason :: (slotReasons w s g ++
      if w.getLsbD 63 = false ∧ g.isSup = true ∧ supForbidden (opField w) = true then [9] else [])
    (barred → TrapsIn (.illegalWord w reason h0 h1) s g (trap64 3 (BitVec.ofNat 32 (opField w)) w cur)) ∧
    (¬ barred → ∃ n, n ∈ reasons ∧ (∀ x ∈ reasons, n ≤ x) ∧
      TrapsIn (.illegalWord w reason h0 h1) s g (trap64 1 (BitVec.ofNat 32 (n + (if h0 then 16 else 0) + (if h1 then 32 else 0))) w cur))

/-! ## Events inside the device -/

/-- The events of slot 0 (R81, R82, R90, R278, R279): a sleep that is over ends with the group ranked youngest, slot 1 that has reached a
word of R82 stops, an entry saves the place and goes to the entry point, and a Resolve that is due resumes the pending side on top.
The caches' own events (R140, R143, R324, R325) and translation (R346): a fill holds the entry that a walk finds, an eviction writes
the page's dirty bytes back first, a line that leaves L1 is written back, a unit is lowered or its partition's share is exhausted. -/
def Obligations.GroupAndCacheEvents : Prop :=
  (∀ (s : State) key g, s.group? key = some g →
  (s.sleepOver g = true → exec (.sleepWake key false) s = .next (s.setGroup key { g with wait := .none, young := true })) ∧
  (g.run1 = true → g.inEntry = false → g.parked = false → (g.spill = 0 ∨ g.stack.any StackEntry.split = true) →
    (g.mask1 = 0 ∨ ∃ x, s.unitWord (s.whoGroup g) g.pc1 = some x ∧ stopsSlot1 x = true) →
    exec (.stopSecondary key) s = .next (s.setGroup key g.stopSecondary)) ∧
  (∀ arr k, s.mayEnter g = true → (arr = true ↔ (g.wait = .gangbar ∨ ∃ id, g.wait = .bar id)) → aget? g.core s.cores = some k →
    ∃ t, exec (.tetherEntry key) s = .next t ∧ t.mem = s.mem ∧ t.blocks = s.blocks ∧ t.requests = s.requests ∧
    (∀ x, x ≠ key → t.group? x = s.group? x) ∧ (∀ c, c ≠ g.core → t.core c = s.core c) ∧
    t.core g.core = { k with regq := k.regq.filter (fun q => q.1 != key), slotq := k.slotq.filter (fun q => q.2 != key) } ∧
    t.group? key = some { g with
      spc := g.pc0, smask := g.mask0, sdepth := g.depth, inEntry := true, arr, arrWait := if arr then g.wait else .none, wait := .none,
      pc0 := g.entrypc, sretry := g.retry0, retry0 := Retry.none, pend0 := none }) ∧
  (∀ e rest, s.resolveReady g = true → 0 < g.depth → g.stack = e :: rest → g.belowEntry 0 = false → e.split = false → e.pm ≠ 0 →
    (e.kind = 1 ∨ e.kind = 2) →
    exec (.resolveAfterTret key) s = .next ((s.setGroup key
      { g with stack := { e with pm := 0 } :: rest, mask0 := e.pm, pc0 := e.pc, wait := .none, retry0 := Retry.none,
               pend0 := none }).withdrawAsks g.core key))) ∧
  ∀ (s : State) c x (va : DWord) e k,
  (aget? c s.cores = some k → x ≠ 0 → s.permLookup (s.whoCtx c (BitVec.ofNat 16 x)) va = .ok e →
    exec (.permissionCacheFill c x va) s = .next (s.fillPerm c e)) ∧
  (∀ i, (s.core c).perm[i]? = some e → exec (.permissionCacheEviction c i) s = .next (s.evictPerm c e)) ∧
  (∀ line, line = lkey x (va57 va) / 256 → (s.core c).l1.any (fun e => e.1 / 256 == line) = true →
    exec (.l1Eviction c x va) s = .next (((List.range 4).foldl (fun s q => s.writeBackSector c (4 * line + q) (fun _ => true)) s).dropBytes c
      (fun k => k / 256 == line))) ∧
  ∀ key g slot, s.group? key = some g → s.unitWord (s.whoGroup g) (g.pc slot) = none →
    let part := (s.whoGroup g).part
    let old := if s.pinsFull then s.oldestPinned else none
    let s1 := { s.takeFree 1 with units := s.units.filter (fun u => some u != old) }
    let room (t : State) : Out State :=
      .next ({ t with exhausted := setDel part t.exhausted }.lowerAt (s.whoGroup g) (g.pc slot) Pend.empty).1
    exec (.translationMiss key slot false) s = room s1 ∧
    (∀ u, old = some u → u.part = part → exec (.translationMiss key slot true) s = room s1) ∧
    ((∀ u, old = some u → u.part ≠ part) →
      (s1.victim part = none → exec (.translationMiss key slot true) s = .next { s1 with exhausted := setAdd part s1.exhausted }) ∧
      ∀ u, s1.victim part = some u → exec (.translationMiss key slot true) s = room { s1 with units := s1.units.erase u }) ∧
    (∀ u, s.oldestPinned = some u → u ∈ s.units ∧ s.pinned u = true ∧ s.unitInUse u = false ∧
      ∀ x ∈ s.units, s.pinned x = true → s.unitInUse x = false → u.born ≤ x.born) ∧
    ∀ u, s.victim part = some u → u ∈ s.units ∧ u.part = part ∧ s.pinned u = false ∧ s.unitInUse u = false

/-- The events of the engines (R180, R189 to R191, R207): a free slot goes to the oldest resumed operation, else the group that waits
longest looks again; an operation moves its next bytes, completes once all are moved, and stops at a fault or a failed link.
The bytes that one access moves (R191, R195, R198, R199, R202): CPY and CPYF the next bytes of their ranges in ascending order, CPYT an
element of its box at its place in the tensor and in the scratchpad, or padding, GATH and SCAT the row that the next index names, added
element by element where SCAT combines; all ones name no row, and a poisoned index fails the operation. DONE and the barrier count what was
moved (R180, R192), and a complete operation leaves once every earlier one of its group and class has (R190). -/
def Obligations.EngineEvents : Prop :=
  (∀ (s : State) c id (gather : Bool) n o,
  (∀ k, s.freeSlot c gather = some n → (s.core c).ops.find? (fun o => o.gather == gather && o.slot.isNone && !(o.complete && o.state != 3)) =
      none → s.firstWaiter c gather = some k →
    exec (.engineSlotGrant c gather) s =
      .next (s.modGroup k (fun g => if g.wait = .engineSlot gather then { g with wait := .none } else g))) ∧
  (s.freeSlot c gather = some n → (s.core c).ops.find? (fun o => o.gather == gather && o.slot.isNone && !(o.complete && o.state != 3)) =
      some o →
    exec (.engineSlotGrant c gather) s = .next (s.setOp c { o with slot := some n, state := if o.state = 4 then 1 else o.state })) ∧
  (s.movable c id = some o → o.len ≤ o.done → exec (.engineOpComplete c id) s = .next (s.completeOp c o)) ∧
  (∀ s1 m, s.movable c id = some o → o.done < o.len → n ≠ 0 → engNext s c o n = .ok (s1, m) →
    exec (.engineBytesDone c id n) s = .next ((s1.engDone c o m).engMove c id n (n - m)).1) ∧
  (∀ s1 f, s.movable c id = some o → o.done < o.len → n ≠ 0 → engNext s c o n = .error (.need s1 f) →
    exec (.engineBytesDone c id n) s = .next (s.engStop c o (.need s1 f))) ∧
  (∀ k va, s.movable c id = some o → o.done < o.len → engNext s c o 1 = .error (.fault k va) →
    exec (.engineAccessFault c id) s = .next (s.engStop c o (.fault k va))) ∧
  (s.movable c id = some o → o.done < o.len → engNext s c o 1 = .error .badIndex →
    exec (.engineAccessFault c id) s = .next (s.failOp c o 5 0 0)) ∧
  (∀ link, (s.op? c id).filter (fun o => o.state == 1 && !o.complete) = some o →
    let fails (va : DWord) : Prop := exec (.engineOpFail c id link) s = .next (s.failOp c o 4 link va)
    (∀ l va, engNext s c o 1 = .error (.link l va) → fails va) ∧ (∀ x k rva va, engNext s c o 1 = .error (.member x k rva va) → fails va) ∧
      (∀ s1 f, engNext s c o 1 = .error (.need s1 f) → fails f.va))) ∧
  (∀ (s : State) c n (o : EngineOp) bn b, o.blk = some bn → aget? bn s.blocks = some b → o.pend.fails = [] → Settled s c →
    EmptyCaches (s.core c) → NoStash s →
  let w := s.whoOp c o
  let left := min n (o.len - o.done)
  (∀ e0 e1 pa pd, o.kind = 1 ∨ o.kind = 3 →
    let d := o.dst + BitVec.ofNat 64 o.done
    let a := o.src + BitVec.ofNat 64 o.done
    let m := min left (min (64 - d.toNat % 64) (if o.kind = 1 then 64 - a.toNat % 64 else 64))
    let src (k : Nat) : Byte := if o.kind = 3 then o.src.extractLsb' (8 * ((d.toNat + k) % 8)) 8
      else if o.sScr then localByte b (a.toNat + k) else s.readPhys (pa + k)
    (o.kind = 3 ∨ o.sScr = true ∨ RunAt s w .read true a m e0 pa) → (o.dScr = true ∨ RunAt s w .write true d m e1 pd) → 0 < m →
    (o.kind = 1 → o.dScr = o.sScr → ∀ k, k < m → o.len ≤ (d + BitVec.ofNat 64 k - o.src).toNat) →
    (o.kind = 1 → o.sScr = false → o.dScr = false → va57 d / 2 ^ e0.bits = va57 a / 2 ^ e0.bits → e1 = e0) →
    ∃ t, engNext s c o n = .ok (t, m) ∧ t.groups = s.groups ∧
      if o.dScr then LocalTook s t bn b d.toNat m src else MemTook s t pd m src) ∧
  (∀ e pa, o.kind = 2 →
    let es := cfgEs (o.par 2)
    let r := o.done % es
    let m := min left (es - r)
    let p := tilePos o (o.done / es)
    let pad (k : Nat) : Byte := if cfgPm (o.par 2) then (o.param.getD 3 0).extractLsb' (8 * ((r + k) % 4)) 8 else 0
    (p.inb = false → ∃ t, engNext s c o n = .ok (t, m) ∧ if o.dirOut then t = s else LocalTook s t bn b (p.off + r) m pad) ∧
    (p.inb = true → 0 < m → RunAt s w (if o.dirOut then .write else .read) true (p.addr + BitVec.ofNat 64 r) m e pa → pa % 64 + m ≤ 64 →
      ∃ t, engNext s c o n = .ok (t, m) ∧ if o.dirOut then MemTook s t pa m (fun k => localByte b (p.off + r + k))
        else LocalTook s t bn b (p.off + r) m (fun k => s.readPhys (pa + k)))) ∧
  (∀ e pa, o.kind = 4 ∨ o.kind = 5 →
    let rowb := o.par 3
    let d := o.par 6 + rowb * (o.done / rowb)
    let ix := o.par 4 + 4 * (o.done / rowb)
    let idx := leNat ((List.range 4).map (fun k => localByte b (ix + k)))
    let g : DWord := BitVec.ofNat 64 (o.base + idx * o.par 2)
    let cm := (o.xop.extractLsb' 6 2).toNat
    let bad : Prop := ∃ q ∈ sectorsOf ix 4, q ∈ b.locPoison
    let apart : Prop := ∀ k, k < rowb → d + k < o.par 4 ∨ o.par 4 + 4 * o.par 5 ≤ d + k
    (bad → engNext s c o n = .error .badIndex) ∧
    (¬ bad → idx = 0xFFFFFFFF → o.kind = 5 → engNext s c o n = .ok (s, rowb)) ∧
    (¬ bad → idx = 0xFFFFFFFF → o.kind = 4 → apart → ∃ t, engNext s c o n = .ok (t, rowb) ∧ LocalTook s t bn b d rowb (fun _ => 0)) ∧
    (¬ bad → idx ≠ 0xFFFFFFFF → rowb ≤ 65536 →
      (o.kind = 4 → apart → RunAt s w .read true g rowb e pa →
        ∃ t, engNext s c o n = .ok (t, rowb) ∧ LocalTook s t bn b d rowb (fun k => s.readPhys (pa + k))) ∧
      (o.kind = 5 → cm = 0 → RunAt s w .write true g rowb e pa →
        ∃ t, engNext s c o n = .ok (t, rowb) ∧ MemTook s t pa rowb (fun k => localByte b (d + k))) ∧
      (o.kind = 5 → cm ≠ 0 → RunAt s w .atomicDev false g rowb e pa →
        let z := if cm = 1 then 4 else 2
        let f := if cm = 1 then f32 else bf16
        let old (j : Nat) : Nat := leNat (s.readPhysN (pa + z * j) z)
        let add (j : Nat) : Nat := leNat ((List.range z).map (fun k => localByte b (d + z * j + k)))
        pa % z = 0 → rowb % z = 0 → ∃ t, engNext s c o n = .ok (t, rowb) ∧
          (∀ j, j < rowb / z → t.readPhysN (pa + z * j) z =
            leBytes (roundTo f (exAdd 0 (f.dec (old j)) (f.dec (add j))).1 0 false 0).1 z) ∧
          ∀ x, ¬ (pa ≤ x ∧ x < pa + rowb) → t.readPhys x = s.readPhys x)))) ∧
  (∀ (o : EngineOp) (i : Nat → Nat),
    let par := o.par
    let cfg := par 2
    let es := 2 ^ (cfg % 4)
    let nd := cfg / 4 % 8
    let box (k : Nat) : Nat := (if k < 4 then par 13 / 2 ^ (8 * k) % 256 else par 14 % 256) + 1
    let q := i 0 + box 0 * (i 1 + box 1 * (i 2 + box 2 * (i 3 + box 3 * i 4)))
    let gk (k : Nat) : Int := (o.coord.getD k 0).toInt + i k
    let n := (if cfg / 32 % 2 = 1 then i 1 + box 1 * i 0 else i 0 + box 0 * i 1) + box 0 * box 1 * (i 2 + box 2 * (i 3 + box 3 * i 4))
    let x := o.dst.toNat + es * n
    let span := 64 * 2 ^ (cfg / 64 % 4)
    (∀ k, k < 5 → i k < box k) → nd ≤ 5 →
    ((tilePos o q).inb = true ↔ ∀ k, k < nd → 0 ≤ gk k ∧ gk k < par (4 + k)) ∧
    (tilePos o q).addr = BitVec.ofInt 64 (par 0 + 2 ^ 32 * par 1 + es * gk 0 +
      ((List.range (nd - 1)).map (fun k => 16 * (par (9 + k) : Int) * gk (k + 1))).sum) ∧
    (tilePos o q).off = if cfg / 64 % 4 = 0 then x else x ^^^ (16 * (x / span % (span / 16)))) ∧
  ∀ (s : State) c (o : EngineOp), (s.core c).ops.filter (fun x => x.id == o.id) = [o] →
  (∀ n, (s.engDone c o n).op? c o.id = some { o with done := o.done + n, pend := Pend.empty } ∧
    (s.engDone c o n).mem = s.mem ∧ (o.tb = none → (s.engDone c o n).blocks = s.blocks ∧ (s.engDone c o n).groups = s.groups) ∧
    ∀ j bn b, o.tb = some j → o.blk = some bn → aget? bn s.blocks = some b → ∃ b', aget? bn (s.engDone c o n).blocks = some b' ∧
      let x := b.tb j
      let y := { x with tx := x.tx - n }
      (∀ k, k ≠ j → b'.tb k = b.tb k) ∧ b'.tb j =
        if x.v = false then x
        else if x.tx - n < -(2 ^ 31 : Int) then { x with er := true }
        else if x.pend = 0 ∧ y.tx = 0 then { y with ph := !x.ph, pend := x.exp }
        else if x.pend = 0 ∧ y.tx < 0 then { y with er := true } else y) ∧
  ∀ g, s.group? (opKey c o) = some g → o.reported = false → o.state ≠ 3 →
    (s.opsOf c (opKey c o) o.gather = [o] → (s.completeOp c o).op? c o.id = none ∧
      (s.completeOp c o).group? (opKey c o) = some (if o.gather then { g with cgath := g.cgath - 1 } else { g with ccopy := g.ccopy - 1 })) ∧
    (∀ x rest, s.opsOf c (opKey c o) o.gather = x :: rest → x.id ≠ o.id → x.reported = false → x.complete = false → x.state ≠ 3 →
      (s.completeOp c o).groups = s.groups ∧ (s.completeOp c o).op? c o.id = some { o with complete := true })

/-- The events of the distributor (R88, R227, R239, R241, R244, R247, R248, R256): a grant of registers, a stall's entry, a core's request
for work, an enlistment that dissolves, displacement of the youngest waiting parent and of the grid's highest block alone, the quad's forming,
a block's and a grid's retirement: a block that has retired is gone with its groups and counted by its grid, and a grid that has retired lives
no more; its completion record holds its number, status, failures and end (R239). -/
def Obligations.DistributorEvents : Prop :=
  ∀ (s : State) c part seq bn b g,
  (∀ key n, s.nextGrant c = some (key, n) → exec (.regacqGrant c) s = .next (s.grantReg c key n)) ∧
  (∀ u, s.youngestBlock c (fun _ => true) = some (bn, b) → s.regStalled c = true →
    s.postMoor c { kind := 3, popped := false, order := 0, key := 0, blk := some bn, seq := b.seq, linear := b.linear, op := none } =
      (u, true) → exec (.registerStall c) s = .next u) ∧
  (∀ k, aget? c s.cores = some k → s.mayAsk c = true → exec (.coreWorkRequest c) s = .next ((s.answer c).getD s)) ∧
  (∀ e, (s.part part).enlists.find? (fun x => x.seq == seq) = some e → 10000 ≤ (s.tick - e.since).toNat →
    exec (.gangEnlistTimeout part seq) s =
      .next (s.modPart part (fun p => { p with enlists := p.enlists.filter (fun x => x.seq != seq) }))) ∧
  (∀ pre late rest, s.gridOrder part = pre ++ late :: rest →
    let waits (x : Grid) : Prop := s.ready x = true ∧ 20000 ≤ (s.tick - x.stamp).toNat ∧ loadsFit 4 [x.firstLoad] = true
    waits late → (∀ x ∈ pre, ¬ waits x) →
    (s.healthy part).findSome? (fun c => s.youngestBlock c (fun e => s.allInCwait e.1)) = some (bn, b) → s.requested b.core bn = false →
    exec (.displaceWaitingParent part) s =
      .next (s.displace bn b late.seq (((late.returns.find? (s.eligibleEntry late)).map Swapped.linear).getD late.claimed))) ∧
  (∀ x rest, s.grid? part seq = some g → g.returns = x :: rest → s.eligibleEntry g x = true → 20000 ≤ (s.tick - x.since).toNat →
    s.couldReadmit g x = false →
    let higher := s.blocks.filter (fun e => e.2.part == part && e.2.seq == seq && x.linear < e.2.linear)
    (bn, b) ∈ higher → (∀ e ∈ higher, e ≠ (bn, b) → e.2.linear < b.linear) → s.requested b.core bn = false →
    exec (.displaceHigherBlock part seq) s = .next (s.displace bn b seq x.linear)) ∧
  (b.gang = false → b.seq ≠ seq → s.gangOf b.part b.seq = 0 → ∀ n, s.displace bn b seq n = s.requestSwap bn b 1) ∧
  (∀ q l, (quadKeys bn q).mapM s.jointMember = some l → exec (.quadForm bn q) s = .next (s.formQuad bn q l)) ∧
  (aget? bn s.blocks = some b → s.blockDone bn b = true → (s.publish b.core).postedOut b.core b.ctxid = false →
    exec (.blockRetire bn) s = .next ((s.publish b.core).retireBlock bn b)) ∧
  (aget? bn s.blocks = some b → s.blockDone bn b = true → (s.publish b.core).postedOut b.core b.ctxid = true →
    exec (.blockRetire bn) s = .next (s.publish b.core)) ∧
  (aget? bn s.blocks = some b →
    let t := s.retireBlock bn b
    aget? bn t.blocks = none ∧ (∀ e ∈ t.groups, e.2.blk ≠ some bn) ∧ (∀ o ∈ (t.core b.core).ops, o.blk ≠ some bn) ∧
    ∀ g, s.grid? b.part b.seq = some g → ∃ h, t.grid? b.part b.seq = some h ∧ h.retired = g.retired + 1 ∧ h.claimed = g.claimed) ∧
  (s.grid? part seq = some g → s.gridDone g = true → exec (.gridRetire part seq) s = .next (s.retireGrid g)) ∧
  (s.grid? g.part g.seq = some g → ∃ h, (s.retireGrid g).grid? g.part g.seq = some h ∧ h.live = false ∧ h.returns = [] ∧
    h.status = g.status) ∧
  ∀ tick,
    let r := g.record tick
    let field (o n : Nat) : Nat := leNat ((r.drop o).take n)
    r.length = 160 ∧ field 0 8 = g.seq % 2 ^ 64 ∧ field 8 2 = g.status % 2 ^ 16 ∧ field 12 4 = g.nfail % 2 ^ 32 ∧ field 16 8 = tick.toNat ∧
    (g.status ∈ [1, 3, 4] → field 24 8 = g.detail.toNat) ∧
    (g.status = 2 → ∀ k, k < 128 → r.getD (32 + k) 0 = aval 0 k g.engrec)

/-- The calls that the firmware serves (R297, R299, R310, R410, R411), and the mooring queue's (R291): each call's results stand in its
lanes' v1, v2 and p6, and its group resumes past its word; a forwarded call's message leaves for its lowest lane, and again where the queue
refused it; a reply's body stands at its address, and a KIND 6 notice carries its tag. What the firmware does with the reply: the lane takes
its results, and the next lane's message leaves or the group goes on (R410); a fault's reply of code 0 lets its entry go on (R339).
The mooring queue's event (R291): a group that stalls for want of an entry takes a free one. -/
def Obligations.CallEvents : Prop :=
  (∀ (s : State) c h key g n, s.callOf c h = some (key, g, n) →
  let ends (u : State) (x : Group) : State := ((u.setGroup key x).resumeGroup key true).freeHandle c h
  let a := g.arg64 1 0
  let len := (g.arg64 3 0).toNat
  let size := (a.toNat + 65535) / 65536 * 65536
  let w := s.whoGroup g
  let part := (s.core c).part
  (n = 1 → exec (.callGetid c h) s = .next (s.serveCall c h key g.trap.w1 (fun s g l =>
    if g.trap.w0.toNat % 4096 = 1 then (s, g.result l (BitVec.ofNat 32 (s.ctxOf g).toNat) (some (BitVec.ofNat 32 s.chip)) true)
    else (s, g.result l 1 none false)))) ∧
  (n = 2 → g.trap.w1 = 1 → a = 0 → ∀ base, exec (.callDmap c h base) s = .next (ends s (g.result 0 2 none false))) ∧
  (n = 2 → g.trap.w1 = 1 → a ≠ 0 → (s.partBytes part < s.mappedBytes part + size ∨ s.spaceHolds w size = false) →
    ∀ base, exec (.callDmap c h base) s = .next (ends s (g.result 0 3 none false))) ∧
  (n = 2 → g.trap.w1 = 1 → a ≠ 0 → s.mappedBytes part + size ≤ s.partBytes part → s.spaceHolds w size = true →
    ∀ base : DWord, base.toNat % 65536 = 0 → canonical base = true → canonical (base + BitVec.ofNat 64 (size - 1)) = true →
    s.regions.filter (fun r => r.part == part && r.ctxid == s.ctxOf g && base ≤ r.base) = [] → s.spaceFree w base size = true →
    exec (.callDmap c h base) s = .next (ends
      { s with regions := s.regions ++
          [{ part, ctxid := s.ctxOf g, base, len := size, writable := (g.getV 3 0).getLsbD 0, backed := [] }] }
      (g.result 0 (lo32 base) (some (hi32 base)) true))) ∧
  (n = 3 → g.trap.w1 = 1 → (len = 0 ∨ len % 65536 ≠ 0 ∨ a.toNat % 65536 ≠ 0 ∨ s.dmapped w.part w.ctxid a len = false) →
    exec (.callDunmap c h) s = .next (ends s (g.result 0 2 none false))) ∧
  (n = 3 → g.trap.w1 = 1 → len ≠ 0 → len % 65536 = 0 → a.toNat % 65536 = 0 → s.dmapped w.part w.ctxid a len = true →
    let u := (s.unmapLeaves w.root a len).invalidate w.part c { mode := 0, asid := w.asid, glb := false, lo := va57 a, len } true
    exec (.callDunmap c h) s = .next (ends
      { u with regions := u.regions.flatMap (fun r => if r.part == w.part && r.ctxid == w.ctxid then r.without a len else [r]) }
      (g.result 0 0 none true))) ∧
  (n = 4 → g.trap.w1 = 1 → ∀ d, s.rawDesc c (s.ctxOf g) = some d →
    let old := d.sigmask
    let now := (old ||| a) &&& ~~~(g.arg64 3 0)
    let due := d.sigpend &&& ~~~now
    let u := (s.setDesc c (s.ctxOf g) 0x28 now.toNat 8).setDesc c (s.ctxOf g) 0x30 (d.sigpend &&& now).toNat 8
    exec (.callSigmask c h) s = .next (ends ((List.range 64).foldl (fun s k => if due.getLsbD k then s.deliver c (s.ctxOf g) k else s) u)
      (g.result 0 (lo32 old) (some (hi32 old)) true))) ∧
  (0x800 ≤ n →
    (s.awaits.find? (fun e => s.awaitFor e.2 g none) = none →
      exec (.callForwarded c h) s = .next (s.forwardLane c g (lowLane g.trap.w1))) ∧
    ∀ tag x, s.awaits.find? (fun e => s.awaitFor e.2 g none) = some (tag, x) → x.sent = false →
      exec (.callForwarded c h) s = .next (s.sendAwait c tag x))) ∧
  ∀ (s : State) c,
  (((s.drainMoor c).core c).mq.length ≠ (s.core c).mq.length → exec (.mooringEntryTake c) s = .next (s.drainMoor c)) ∧
  (∀ tag reply body s1 k, s.hostUp = true → aget? c s.cores = some k → s.ctx0Write (s.core c).part reply body = .ok s1 →
    exec (.hostReply c tag reply body) s = .next (s1.postNotice c
      { kind := 6, popped := false, order := 0, slot := 0, ctxid := 0, info := tag, seq := 0, linear := 0, addr := reply, blk := none })) ∧
  ∀ h (e : Moor) (a : Await) body g, s.group? e.key = some g →
    let f (o : Nat) : Nat := leNat ((body.drop o).take 4)
    let g1 := g.result a.lane (BitVec.ofNat 32 (f 4)) (some (BitVec.ofNat 32 (f 8))) (f 0 % 2 == 1)
    (∀ l, (Mask.toLanes g.trap.w1).find? (fun l => a.lane < l) = some l →
      s.callReply c h e a body = (s.setGroup e.key g1).forwardLane c g1 l) ∧
    ((Mask.toLanes g.trap.w1).find? (fun l => a.lane < l) = none →
      s.callReply c h e a body = ((s.setGroup e.key g1).resumeGroup e.key true).freeHandle c h) ∧
    (e.kind = 1 → s.faultReply c h e 0 = ((s.resumeGroup e.key false).freeHandle c h, true))

/-! ## Links, host and peers -/

/-- The responses to the device's requests (R146, R160, R186, R271, R334, R378, R380): a load lands or fails with its code, an
acknowledged write is no longer outstanding, a write that fails is recorded, the sector of waiting REDs performs them, a TSEND's status
lands, a request without an answer within LINKTMO fails with link code 32, and an error of the link enters a TYPE 3 record with the port and
its code.
Ports (R369, R378, R380, R386): a failed UALink port is down and its outstanding requests are rerouted; under a pod configuration a retrained
one is up again; the host port comes up as PCIe or CXL, and each is recorded with its port. -/
def Obligations.LinkAndPortEvents : Prop :=
  (∀ (s : State) tag r, aget? tag s.requests = some r →
  let s0 := r.answered tag s
  let after (code : Nat) : State := r.answered tag (s.requestEvent r code)
  let gone : State := { s0 with requests := adel tag s0.requests }
  (r.kind ≠ .posted → r.kind ≠ .tsend → ∀ data,
    exec (.loadPerformed tag data false 0) s = .next (s0.landPart tag r data) ∧ aget? tag (s0.landPart tag r data).requests = none ∧
    exec (.loadPerformed tag data true 0) s = .next ((after 34).failPart tag r 1 0 34 false) ∧
    ∀ f poison, f ≠ 0 → exec (.loadPerformed tag data poison f) s =
      .next (if f < 16 then s0.failPart tag r 1 f 0 false else (after 35).failPart tag r 1 0 35 false)) ∧
  (r.kind = .posted → r.completes = true → ∀ data,
    exec (.loadPerformed tag data false 0) s = .next ((gone.keepBytes r data).redActs r data r.acts) ∧
    exec (.loadPerformed tag data true 0) s = .next ((after 34).failPosted tag r (1 + 2 ^ 40 * 34)) ∧
    ∀ f poison, f ≠ 0 → exec (.loadPerformed tag data poison f) s =
      .next (if f < 16 then s0.failPosted tag r (1 + 16 * f) else (after 35).failPosted tag r (1 + 2 ^ 40 * 35))) ∧
  (r.kind = .posted → r.acts = [] → exec (.postedWriteAck tag) s = .next (r.answered tag { s with requests := adel tag s.requests })) ∧
  (∀ reason, r.kind = .posted → exec (.postedWriteFail tag reason) s =
    .next ((if linkCode reason < 16 then s0 else after (linkCode reason)).failPosted tag r reason)) ∧
  (∀ status, r.kind = .tsend → exec (.tetherApertureResponse tag status) s = .next (s0.landPart tag r (leBytes status 1))) ∧
  (¬ s.tick - r.issued < BitVec.ofNat 64 (1000 * (s.part (s.makerPart r)).linktmo) → aget? tag s.ctxWait = none →
    let s1 := s.requestEvent r 32
    (r.kind = .posted → exec (.linkResponseTimeout tag) s = .next (s1.failPosted tag r 2)) ∧
    (r.kind = .tsend → exec (.linkResponseTimeout tag) s = .next (s1.landPart tag r (leBytes 5 1))) ∧
    (r.kind ≠ .posted → r.kind ≠ .tsend → r.chip = none →
      exec (.linkResponseTimeout tag) s = .next (s1.failPart tag r 2 0 32 (r.kind == .atomic)))) ∧
  ∃ t, t = s.requestEvent r 32 ∧ t.mem = s.mem ∧ t.cores = s.cores ∧ t.groups = s.groups ∧ t.requests = s.requests ∧
    ∃ e ∈ t.eventLog, e.ringE = true ∧ e.type = 3 ∧ e.tick = s.tick ∧ e.part = s.makerPart r ∧ e.ctxid = r.ctxid ∧
      e.info = [BitVec.ofNat 64 (r.port.getD 16), 32]) ∧
  ∀ (s : State) port, port < 16 →
  (s.portsUp.getLsbD port = true → exec (.ualinkPortFail port) s = .next
    ((s.requests.filter (fun e => e.2.port == some port)).foldl (fun s e => s.reroute e.1 e.2)
      ({ s with portsUp := s.portsUp &&& ~~~(1#16 <<< port) }.linkEvent none port 33))) ∧
  (s.podInstalled = true → exec (.ualinkPortRetrain port) s = .next ({ s with portsUp := s.portsUp ||| (1#16 <<< port) }.linkEvent none port 0)) ∧
  ∀ cxl atomicOp, s.hostUp = false →
    exec (.hostPortUp cxl atomicOp) s = .next ({ s with hostUp := true, hostCxl := cxl && s.booted, atomicOpEn := atomicOp }.linkEvent none hostPortNo 0)

/-- What peers ask of the device (R333, R375, R379): an access is performed at the address that the member's own tables give, and its
response kept; a request that was answered is answered again and not performed; one that fails its checks is answered with the kind. A
tether request is an Accept that never reaches endpoint 63.
The peer port (R374 to R377): a window's write that it takes stands in memory at the address that its context's tables give, and is
counted; one that it does not take is counted as a fault; its read answers with the bytes; its doorbell is an Accept. -/
def Obligations.PeerEvents : Prop :=
  (∀ (s : State) (req : PeerReq),
  (∀ x, s.keptOf req.chip req.tag = some x →
    exec (.ualinkInboundAccess req) s = .next (s.send (.response req.chip req.tag x.status x.data))) ∧
  (∀ k, s.keptOf req.chip req.tag = none → s.inbound (BitVec.ofNat 16 req.ctxid) req.va (req.kind != .load) = .error k →
    exec (.ualinkInboundAccess req) s = .next ((s.inboundFault (BitVec.ofNat 16 req.ctxid) k req.va).respond req.chip req.tag k [])) ∧
  (∀ pa, s.keptOf req.chip req.tag = none → s.inbound (BitVec.ofNat 16 req.ctxid) req.va (req.kind != .load) = .ok pa →
    let q := s.peerPerform pa req
    exec (.ualinkInboundAccess req) s = .next (q.1.respond req.chip req.tag (if q.2.2 then 34 else 0) q.2.1)) ∧
  (∀ chip tag sender ctxid ep payload, s.keptOf chip tag = none → ep ≤ 62 →
    let q := s.acceptFor (BitVec.ofNat 16 ctxid) ep payload sender
    exec (.ualinkTetherRequest chip tag sender ctxid ep payload) s = .next (q.2.respond chip tag q.1 [])) ∧
  (∀ chip tag sender ctxid ep payload, s.keptOf chip tag = none → 62 < ep →
    exec (.ualinkTetherRequest chip tag sender ctxid ep payload) s = .next (s.respond chip tag 6 [])) ∧
  (∀ chip ctx x, s.kept.find? (fun y => y.chip == chip && y.ctx == ctx) = some x → ¬ s.tick - x.since < 2000000 →
    exec (.keptResponseExpire chip ctx) s = .next { s with kept := s.kept.filter (fun x => !(x.chip == chip && x.ctx == ctx)) }) ∧
  ∀ n, exec (.peerUnsupportedRequest n) s = .next (s.send (.response n 0 1 []))) ∧
  ∀ (s : State) n req off pa, n ≤ 63 →
  let w := s.window n
  let va := w.base + BitVec.ofNat 64 off
  (∀ data poison, w.takes req off = true → s.inbound w.ctxid va true = .ok pa →
    ∃ t, exec (.peerWindowWrite n req off data poison) s = .next t ∧
      (∀ x, t.readPhys x = if pa ≤ x ∧ x < pa + data.length then data.getD (x - pa) 0 else s.readPhys x) ∧
      (∀ k, k ≠ n → t.window k = s.window k) ∧
      t.window n = { w with performed := w.performed + data.length, high := max w.high (off + data.length) }) ∧
  (∀ data poison, w.takes req off = false → ∃ t, exec (.peerWindowWrite n req off data poison) s = .next t ∧ t.mem = s.mem ∧
    (∀ k, k ≠ n → t.window k = s.window k) ∧ t.window n = { w with faults := min (w.faults + 1) (2 ^ 24 - 1) }) ∧
  (∀ size, w.takes req off = false → exec (.peerWindowRead n req off size) s = .next (s.send (.response req 0 1 []))) ∧
  (∀ size, w.takes req off = true → s.inbound w.ctxid va false = .ok pa →
    exec (.peerWindowRead n req off size) s = .next ((s.recallRun pa size).send
      (.response req 0 (if s.physPoison pa size then 34 else 0) (s.readPhysN pa size)))) ∧
  (∀ v value, aget? n s.windows = some v → v.enabled = true → v.psrc = 0 →
    let q := s.acceptFor v.ctxid v.endpoint value (senderId 3 s.chip n)
    exec (.peerDoorbellWrite (64 * n) 8 value) s = .next (q.2.modWindow n (fun w =>
      { w with status := q.1, refused := if q.1 = 0 then w.refused else min (w.refused + 1) (2 ^ 32 - 1), performed := 0, high := 0 }))) ∧
  (aget? n s.windows = none → ∀ value, exec (.peerDoorbellWrite (64 * n) 8 value) s = .next s)

/-- What the host asks of the device (R183, R273, R369, R370, R381, R388, R390): a snoop takes the line's dirty bytes, an access of device memory
reads or writes it unless its frame is secure or its partition resets, a doorbell store is an Accept with the page's token, a field of
the host block takes its value over a port that is up; when the port goes down nothing of the host's is held.
Submissions (R371, R373, R376, R382): an entry that the ring holds is taken; its status and result are written and SQHEAD moves past
it, for each kind of entry; a tail inside the ring is taken. A launch that nothing refuses gives its grid's number, an INVAL the status of its
operands, a RECLAIM finds the orphan with its token within GRACE, a BINDDB binds or frees its page, a WINDOW sets or disables its window, and
an entry of no kind gives 0xFFFF. -/
def Obligations.HostEvents : Prop :=
  (∀ (s : State),
  (∀ pa own, s.hostUp = true → s.hostCxl = true →
    let line := (2 ^ 51 + pa % 2 ^ 51) / 64
    ∃ t, exec (.hostSnoop pa own) s = .next t ∧ t.mem = s.mem ∧ t.cores = s.cores ∧ t.groups = s.groups ∧ line ∉ t.llcOwned ∧
    (∀ e ∈ t.llcHost, e.1 / 64 = line → own = false ∧ e.2.2 = false) ∧
    ∀ k, k / 64 ≠ line → ∀ v, (k, v) ∈ t.llcHost ↔ (k, v) ∈ s.llcHost) ∧
  (∀ pa p data poison, s.hostUp = true → s.hostCxl = true → s.partOfMem pa = some p → s.secureFrame pa = false →
    (s.part p).resetting = false →
    ∃ t, exec (.hostHdmAccess pa data.length true data poison) s = .next t ∧
      ∀ x, t.readPhys x = if pa ≤ x ∧ x < pa + data.length then data.getD (x - pa) 0 else s.readPhys x) ∧
  (∀ pa p data poison, s.hostUp = true → s.hostCxl = true → s.partOfMem pa = some p → (s.secureFrame pa = true ∨ (s.part p).resetting = true) →
    exec (.hostHdmAccess pa data.length true data poison) s = .next s) ∧
  (∀ pa n p data poison, s.hostUp = true → s.hostCxl = true → s.partOfMem pa = some p → s.secureFrame pa = false →
    (s.part p).resetting = false → ∃ t, exec (.hostHdmAccess pa n false data poison) s = .next t ∧ t.mem = s.mem ∧ t.groups = s.groups ∧
      t.out = s.out ++ [Msg.host (if s.physPoison pa n then 1 else 0) 0 (s.readPhysN pa n) (s.physPoison pa n)]) ∧
  (∀ page d e value, aget? page s.doorbells = some d → e ≤ 62 →
    let q := s.acceptFor d.ctxid e value (senderId 1 s.chip d.token.toNat)
    let fails := if q.1 = 0 then d.fails else aput e (min (aval 0 e d.fails + 1) (2 ^ 32 - 1)) d.fails
    exec (.hostDoorbellStore page (64 * e) 8 value) s =
      .next { q.2 with doorbells := aput page { d with status := aput e q.1 d.status, fails } q.2.doorbells }) ∧
  (∀ part off value, part < s.parts.length → s.hostUp = true →
    exec (.hostBlockWrite part off value) s = .next (s.modPart part (fun p => p.hostField off value))) ∧
  (s.hostUp = true → ∃ t, exec .hostPortDown s = .next t ∧ t.hostUp = false ∧ t.llcHost = [] ∧ t.doorbells = [] ∧ t.portDownTick = s.tick)) ∧
  ∀ (s : State) part (ctxid : Nat) (a b c : DWord), s.entryWaits part = true →
  let id := BitVec.ofNat 16 ctxid
  let taken (i : Instr) (t : Taken) : Prop := exec i s = .next (match t with
    | (some (st, r), s1) => s1.finishEntry part st r
    | (none, s1) => s1)
  taken (.submitLaunch part ctxid a) (s.takeLaunch part id a) ∧ (∀ places, taken (.submitLoad part ctxid a b places) (s.takeLoad part id a b places)) ∧
  taken (.submitInval part a b c) (s.takeInval part a b c) ∧ taken (.submitReclaim part ctxid a) (s.takeReclaim part a) ∧
  taken (.submitBinddb part ctxid a b) (s.takeBind id a b) ∧ taken (.submitWindow part ctxid a b c) (s.takeWindow id a b c) ∧
  (∀ st (r : DWord) p, aget? part s.parts = some p →
    let t := s.finishEntry part st r
    let q := t.part part
    t.out = s.out ++ [.submitted part (p.sqbase + 64 * p.sqhead) st r] ∧ q.sqhead.toNat = (p.sqhead.toNat + 1) % max 1 p.sqsize.toNat ∧
    q.sqBusy = none ∧ q.sqtail = p.sqtail ∧ t.mem = s.mem ∧ t.groups = s.groups ∧ t.cores = s.cores ∧ ∀ k, k ≠ part → t.part k = s.part k) ∧
  (∀ d, (s.ctxCore id).bind (fun c => s.desc c id) = some d → d.part = part → a.toNat % 64 = 0 →
    let w := s.whoDist part id
    let q := readRecord s w a (s.part part).sqPend
    (∀ k, k < 4 → ∃ x, s.checkByte w .read (recordVa a k) true = .ok x) → q.needs = [] → q.failed = none →
    let st := q.s.launchStatus part id d q.bytes q.poison
    (st ≠ 0 → s.takeLaunch part id a = (some (st, 0), q.s)) ∧
    (st = 0 → ∃ t, s.takeLaunch part id a = (some (0, BitVec.ofNat 64 (q.s.part part).nextSeq), t) ∧
      ∃ g, t.grid? part (q.s.part part).nextSeq = some g ∧ g.live = true ∧ g.claimed = 0 ∧ g.depth = 1 ∧ g.ctxid = id ∧ g.parent = none)) ∧
  (∀ h, s.tableCore part = some h →
    let st := invStatus a.toNat b c.toNat
    (st ≠ 0 → s.takeInval part a b c = (some (st, 0), s)) ∧
    (st = 0 → s.redsIn part = true → s.takeInval part a b c = (none, s)) ∧
    (st = 0 → s.redsIn part = false →
      let u := s.invalidate part h (invRange a.toNat b c.toNat) (a.getLsbD 18)
      (u.openTags part = [] → s.takeInval part a b c = (some (0, 0), u)) ∧
      (u.openTags part ≠ [] → s.takeInval part a b c = (none, u.modPart part (fun p => { p with sqBusy := some (.inval (u.openTags part)) }))))) ∧
  ((∀ x ∈ s.partCtxs part, x.2.orphaned = true → x.2.token = a → s.graceOver part x.1 = true) → s.takeReclaim part a = (some (1, 0), s)) ∧
  (∀ h x d, (s.healthy part).head? = some h →
    (s.partCtxs part).find? (fun x => x.2.orphaned && x.2.token == a && !s.graceOver part x.1) = some (x, d) →
    ∃ t, s.takeReclaim part a = (some (0, if s.hostLost.contains x.toNat then 1 else 0), t) ∧ x.toNat ∉ t.hostLost) ∧
  (let page := a.toNat;
    (65535 < page → s.takeBind id a b = (some (1, 0), s)) ∧
    (page ≤ 65535 → s.ctxCore id = none → s.takeBind id a b = (some (2, 0), s)) ∧
    (page ≤ 65535 → s.ctxCore id ≠ none → ∃ t, s.takeBind id a b = (some (0, 0), t) ∧
      (∀ k, k ≠ page → aget? k t.doorbells = aget? k s.doorbells) ∧ aget? page t.doorbells = (if b.getLsbD 16 then none else
        some { token := b &&& 0xFFFF, ctxid := id, status := [], fails := [] }))) ∧
  (let f (lo k : Nat) : Nat := c.toNat / 2 ^ lo % 2 ^ k;
    let bad : Prop := canonical b = false ∨ b.toNat % 4096 ≠ 0 ∨ f 0 36 = 0 ∨ 16777216 < f 0 36 ∨ 62 < f 36 6 ∨ f 42 2 = 3 ∨ f 46 2 ≠ 0;
    (63 < a.toNat → s.takeWindow id a b c = (some (1, 0), s)) ∧
    (a.toNat ≤ 63 → f 44 1 = 0 → ∃ t, s.takeWindow id a b c = (some (0, 0), t) ∧ t.window a.toNat = { s.window a.toNat with enabled := false } ∧
      ∀ k, k ≠ a.toNat → t.window k = s.window k) ∧
    (a.toNat ≤ 63 → f 44 1 = 1 → bad → s.takeWindow id a b c = (some (1, 0), s)) ∧
    (a.toNat ≤ 63 → f 44 1 = 1 → ¬ bad → s.ctxCore id = none → s.takeWindow id a b c = (some (2, 0), s)) ∧
    (a.toNat ≤ 63 → f 44 1 = 1 → ¬ bad → s.ctxCore id ≠ none → ∃ t, s.takeWindow id a b c = (some (0, 0), t) ∧
      (∀ k, k ≠ a.toNat → t.window k = s.window k) ∧ t.window a.toNat =
        { enabled := true, ctxid := id, base := b, size := f 0 36, endpoint := f 36 6, psrc := f 42 2, anyReq := f 45 1 == 1,
          reqId := f 48 16, status := 0, faults := 0, refused := 0, performed := 0, high := 0 })) ∧
  (∀ l : List Byte, (leNat (l.take 2) = 0 ∨ 6 < leNat (l.take 2) ∨ (∃ k, k < 24 ∧ l.getD (40 + k) 0 ≠ 0)) →
    s.takeBytes part l = some (some (0xFFFF, 0), s)) ∧
  ∀ tail entries, s.hostUp = true → part < s.parts.length → tail.toNat < (s.part part).sqsize.toNat → exec (.sqtailWrite part tail entries) s =
    .next ((s.modPart part (fun p => { p with sqtail := tail.zeroExtend 64 })).takeEntries part entries)

/-! ## Reset, security, power, debug -/

/-- Resets (R316, R382, R383, R389, R390): a cold reset leaves the device as its boot chain does; a watchdog past its deadline and a request reset
a partition, after which no group, block or grid of it is left and its memory is clear; a core with an uncorrectable
error is fenced; a context that is still an orphan after GRACE is killed once the accesses that its discard awaits are performed. -/
def Obligations.ResetEvents : Prop :=
  ∀ (s : State),
  (∀ img, exec (.coldReset img) s = .next { State.boot 0 img with freeCtr := s.freeCtr, out := s.out }) ∧
  (∀ p i, p < s.parts.length →
    (i = .partitionResetRequest p ∨ (i = .watchdogExpire p ∧ (s.part p).resetting = false ∧ ¬ s.tick < (s.part p).wdDeadline)) →
    ∃ t, exec i s = .next t ∧ (∀ e ∈ t.groups, (s.core e.2.core).part ≠ p) ∧ (∀ e ∈ t.blocks, e.2.part ≠ p) ∧ (∀ e ∈ t.grids, e.2.part ≠ p) ∧
      ∀ a, s.inStacks p a = true → t.readPhys a = 0) ∧
  (∀ c unit, (s.core c).enabled = true → (s.core c).fenced = false →
    exec (.coreUncorrectableError c unit) s = .next (s.fenceCore c unit)) ∧
  ∀ p c, (s.healthy p).head? = some c →
    let orphans := (s.partCtxs p).filter (fun x => x.2.orphaned && s.graceOver p x.1)
    let s1 := orphans.foldl (fun s x => s.killStop x.1 x.2) s
    orphans ≠ [] →
    (∀ x, orphans.find? (fun x => (s1.killTags x.1 x.2).isEmpty) = some x → exec (.graceExpire p) s = .next (s1.killCtx c x.1 x.2)) ∧
    (orphans.find? (fun x => (s1.killTags x.1 x.2).isEmpty) = none → exec (.graceExpire p) s = .next s1)

/-- The management interface (R306, R358, R364, R367, R383, R385, R391, R393): measurement, certificates, the last-events record, power, clock and
throttling, debug stops, the trace ring, memory poison, and a context's creation. -/
def Obligations.ManagementEvents : Prop :=
  ∀ (s : State),
  (s.managementUp = true → exec .spdmCert s = .next (s.send (.mgmt 1 Config.certificate)) ∧
    (let signed (q r : List Byte) : List DWord := Config.sign (leBytes (Config.sha384 (q ++ r)).toNat 48);
      (∀ n, exec (.spdmChal n) s = .next (s.send (.mgmt 2 (signed n [])))) ∧
      ∀ m, m = (List.range 16).flatMap (fun i => BitVec.ofNat 8 (i + 1) :: leBytes (aval 0 i s.measure).toNat 64) →
        exec .spdmMeas s = .next ({ s with mailbox := [] }.send (.mgmt 3 (dwordsOf m ++ signed s.mailbox m)))) ∧
    ∀ r d, 5 ≤ r → r ≤ 15 → exec (.extend r d) s = .next { s with measure := aput r (extendM (aval 0 r s.measure) d) s.measure }) ∧
  (s.managementUp = true → exec .lastEventsRead s = .next (s.send (.mgmt 0 (s.eventLog.flatMap EventRecord.words)))) ∧
  (∀ w, s.managementUp = true → (600 ≤ w ∧ w ≤ 2000 → exec (.powerCap w) s =
      .next ({ s with powerCap := w }.logEvent true 4 0 0xFF 0 [BitVec.ofNat 64 w])) ∧
    (¬ (600 ≤ w ∧ w ≤ 2000) → exec (.powerCap w) s = .next s)) ∧
  (∀ f, (min f 2250 = s.clockMHz → exec (.governorTick f) s = .next s) ∧
    (min f 2250 ≠ s.clockMHz → exec (.governorTick f) s =
      .next ({ s with clockMHz := min f 2250 }.logEvent true 4 0 0xFF 0 [BitVec.ofNat 64 (min f 2250)]))) ∧
  (∀ k, k < 12 → exec (.railCurrentThrottle k false) s = .next { s with throttled := setDel k s.throttled } ∧
    ∃ t, exec (.railCurrentThrottle k true) s = .next t ∧ k ∈ t.throttled ∧ t.mem = s.mem ∧ t.cores = s.cores) ∧
  (∀ d f, 105 ≤ d → d < 115 → exec (.thermalLimit d f) s =
    .next { (s.logEvent true 4 0 0xFF 0 [BitVec.ofNat 64 d]) with clockMHz := min f s.clockMHz }) ∧
  (∀ d f, 115 ≤ d → exec (.thermalLimit d f) s = .next (s.logEvent true 4 0 0xFF 0 [BitVec.ofNat 64 d]).warmReset) ∧
  (∀ tick part, s.flash.manifest.debugFlags.getLsbD 0 = true → (∀ p, part = some p → p < s.parts.length) →
    exec (.debugStopArm tick part) s = .next { s with debugArmed := s.debugArmed ++ [(tick, part)] }) ∧
  (∀ e part, s.debugArmed.find? (fun e => e.2 == part && decide (e.1 ≤ s.tick)) = some e →
    ∃ t, exec (.debugStop part) s = .next t ∧ t.debugStopped = s.debugStopped ++ [part] ∧ t.debugArmed = s.debugArmed.erase e) ∧
  (∀ c k, aget? c s.cores = some k → k.traceBuf ≠ [] → (s.part k.part).trsize ≠ 0 → s.hostUp = true →
    let room := Config.freeNat s.freeCtr
    exec (.traceDrain c) s = .next (((k.traceBuf.take room).foldl (fun s e => s.ringPut k.part e.2) (s.takeFree 1)).modCore c (fun k =>
      { k with traceBuf := [], traceDrop := k.traceDrop + (k.traceBuf.length - room) }))) ∧
  (∀ pa, (pa < hbmEnd ∨ hostBase ≤ pa) → ∃ t, exec (.memoryPoisonFound pa) s = .next t ∧ pa / 64 ∈ t.memPoison ∧ t.mem = s.mem ∧
    ∀ p, p < s.parts.length → (s.part p).info.fwres ≤ pa → pa < (s.part p).info.fwres + 0x20000000 → ∀ u ∈ t.units, u.part ≠ p) ∧
  ∀ req, (s.contextBad req = true → exec (.createContext req) s = .next (s.send (.mgmt 4 [1]))) ∧
    ∀ s1, s.contextBad req = false → s.ctx0Write (s.core req.core).part (s.descAddr req.core (BitVec.ofNat 16 req.ctxid))
      (contextBytes req) = .ok s1 → exec (.createContext req) s = .next (s1.send (.mgmt 4 [0]))
end

