-- ==== Sys2Proof/Laws/Map.lean ====
section
/-! SUPPORT. The laws of sparse maps: read after write, and that every operation keeps the canonical form. -/
namespace Sys2Proof.Machine

variable {α : Type}

@[simp] theorem aget?_aput_self (k : Nat) (v : α) (m : List (Nat × α)) : aget? k (aput k v m) = some v := by
  induction m with
  | nil => simp [aput, aget?]
  | cons e t ih =>
    obtain ⟨j, w⟩ := e
    simp only [aput]
    split
    · simp [aget?]
    · split
      · simp [aget?]
      · rename_i h1 h2
        rw [aget?, if_neg (fun h => h2 h.symm), ih]

theorem aget?_aput_ne {j k : Nat} (h : j ≠ k) (v : α) (m : List (Nat × α)) : aget? j (aput k v m) = aget? j m := by
  induction m with
  | nil => simp [aput, aget?, Ne.symm h]
  | cons e t ih =>
    obtain ⟨i, w⟩ := e
    simp only [aput]
    split
    · rw [aget?, if_neg (Ne.symm h)]
    · split
      · rename_i h1 h2
        rw [aget?, if_neg (Ne.symm h), aget?, if_neg (fun e => h (e.symm.trans h2.symm))]
      · rw [aget?, aget?, ih]

@[simp] theorem aget?_adel_self (k : Nat) (m : List (Nat × α)) : aget? k (adel k m) = none := by
  induction m with
  | nil => rfl
  | cons e t ih =>
    obtain ⟨j, w⟩ := e
    simp only [adel]
    split
    · exact ih
    · rename_i h
      rw [aget?, if_neg h, ih]

theorem aget?_adel_ne {j k : Nat} (h : j ≠ k) (m : List (Nat × α)) : aget? j (adel k m) = aget? j m := by
  induction m with
  | nil => rfl
  | cons e t ih =>
    obtain ⟨i, w⟩ := e
    simp only [adel]
    split
    · rename_i hi
      rw [ih, aget?, if_neg (fun e => h (e.symm.trans hi))]
    · rw [aget?, aget?, ih]

theorem aval_aset_self [DecidableEq α] (d : α) (k : Nat) (v : α) (m : List (Nat × α)) : aval d k (aset d k v m) = v := by
  unfold aset aval
  split
  · simp [*]
  · simp

theorem aval_aset_ne [DecidableEq α] {j k : Nat} (h : j ≠ k) (d v : α) (m : List (Nat × α)) :
    aval d j (aset d k v m) = aval d j m := by
  unfold aset aval
  split
  · rw [aget?_adel_ne h]
  · rw [aget?_aput_ne h]

theorem aval_aset [DecidableEq α] (d : α) (j k : Nat) (v : α) (m : List (Nat × α)) :
    aval d j (aset d k v m) = if j = k then v else aval d j m := by
  split
  · subst j; exact aval_aset_self d k v m
  · exact aval_aset_ne ‹_› d v m

theorem mem_aput {k : Nat} {v : α} {m : List (Nat × α)} {e : Nat × α} (h : e ∈ aput k v m) : e = (k, v) ∨ e ∈ m := by
  induction m with
  | nil => simpa [aput] using h
  | cons x t ih =>
    obtain ⟨j, w⟩ := x
    simp only [aput] at h
    split at h
    · simpa using h
    · split at h
      · rcases List.mem_cons.1 h with h | h
        · exact .inl h
        · exact .inr (List.mem_cons_of_mem _ h)
      · rcases List.mem_cons.1 h with h | h
        · exact .inr (h ▸ List.mem_cons_self ..)
        · exact (ih h).imp id (List.mem_cons_of_mem _)

theorem mem_adel {k : Nat} {m : List (Nat × α)} {e : Nat × α} (h : e ∈ adel k m) : e ∈ m := by
  induction m with
  | nil => exact h
  | cons x t ih =>
    obtain ⟨j, w⟩ := x
    simp only [adel] at h
    split at h
    · exact List.mem_cons_of_mem _ (ih h)
    · rcases List.mem_cons.1 h with h | h
      · exact h ▸ List.mem_cons_self ..
      · exact List.mem_cons_of_mem _ (ih h)

theorem sorted_aput (k : Nat) (v : α) {m : List (Nat × α)} (h : ASorted m) : ASorted (aput k v m) := by
  induction m with
  | nil => simp [aput, ASorted]
  | cons x t ih =>
    obtain ⟨j, w⟩ := x
    have hp := List.pairwise_cons.1 h
    simp only [aput]
    split
    · rename_i hk
      refine List.pairwise_cons.2 ⟨fun e he => ?_, h⟩
      rcases List.mem_cons.1 he with rfl | he
      · exact hk
      · exact Nat.lt_trans hk (hp.1 e he)
    · split
      · rename_i h2
        exact List.pairwise_cons.2 ⟨fun e he => h2 ▸ hp.1 e he, hp.2⟩
      · rename_i h1 h2
        refine List.pairwise_cons.2 ⟨fun e he => ?_, ih hp.2⟩
        rcases mem_aput he with rfl | he
        · exact Nat.lt_of_le_of_ne (Nat.le_of_not_lt h1) (Ne.symm h2)
        · exact hp.1 e he

theorem sorted_adel (k : Nat) {m : List (Nat × α)} (h : ASorted m) : ASorted (adel k m) := by
  induction m with
  | nil => exact h
  | cons x t ih =>
    obtain ⟨j, w⟩ := x
    have hp := List.pairwise_cons.1 h
    simp only [adel]
    split
    · exact ih hp.2
    · exact List.pairwise_cons.2 ⟨fun e he => hp.1 e (mem_adel he), ih hp.2⟩

theorem wf_aset [DecidableEq α] (d : α) (k : Nat) (v : α) {m : List (Nat × α)} (h : AWf d m) : AWf d (aset d k v m) := by
  unfold aset
  split
  · exact ⟨sorted_adel k h.1, fun e he => h.2 e (mem_adel he)⟩
  · rename_i hv
    refine ⟨sorted_aput k v h.1, fun e he => ?_⟩
    rcases mem_aput he with rfl | he
    · exact hv
    · exact h.2 e he

end Sys2Proof.Machine
end

