-- ==== Sys2Proof/Laws/Masks.lean ====
section
/-! SUPPORT. The laws of lane masks: what a mask built from lanes holds, and which lanes a mask names. -/
namespace Sys2Proof.Machine

theorem getLsbD_lane (l k : Nat) (hk : k < 32) : (1#32 <<< l).getLsbD k = decide (k = l) := by
  rw [BitVec.getLsbD_shiftLeft, BitVec.getLsbD_one]
  rcases Nat.lt_trichotomy k l with h | h | h
  · simp [h, Nat.ne_of_lt h]
  · subst h; simp [hk]
  · simp [hk, Nat.not_lt_of_lt h, Nat.ne_of_gt h, Nat.sub_ne_zero_of_lt h]

theorem getLsbD_foldl_lanes (f : Nat → Bool) (ls : List Nat) (m : Mask) (k : Nat) (hk : k < 32) :
    (ls.foldl (fun (m : Mask) l => if f l then m ||| (1#32 <<< l) else m) m).getLsbD k =
      (m.getLsbD k || (ls.contains k && f k)) := by
  induction ls generalizing m with
  | nil => simp
  | cons a t ih =>
    rw [List.foldl_cons, ih, List.contains_cons]
    by_cases h : k = a
    · subst h; cases hf : f k <;> simp [getLsbD_lane _ _ hk]
    · have hb : (k == a) = false := beq_false_of_ne h
      cases hf : f a <;> simp [getLsbD_lane _ _ hk, h, hb]

/-- Lane k of a mask built by a test is the test of k. -/
theorem getLsbD_maskOf (f : Nat → Bool) (k : Nat) (hk : k < 32) : (maskOf f).getLsbD k = f k := by
  rw [maskOf, getLsbD_foldl_lanes _ _ _ _ hk]
  have : lanes32.contains k = true := by simp [lanes32, hk]
  simp [-List.contains_eq_mem, this]

theorem mem_toLanes (m : Mask) (l : Nat) : l ∈ Mask.toLanes m ↔ m.getLsbD l = true := by
  simp only [Mask.toLanes, lanes32, List.mem_filter, List.mem_range, and_iff_right_iff_imp]
  intro h
  exact BitVec.lt_of_getLsbD h

theorem mask_ext {a b : Mask} (h : ∀ k, k < 32 → a.getLsbD k = b.getLsbD k) : a = b :=
  BitVec.eq_of_getLsbD_eq (fun k hk => h k hk)

theorem toLanes_zero : Mask.toLanes 0 = [] := by decide

theorem toLanes_eq_nil {m : Mask} : Mask.toLanes m = [] ↔ m = 0 := by
  constructor
  · intro h
    refine mask_ext (fun k _ => ?_)
    cases hb : m.getLsbD k with
    | false => simp
    | true => exact absurd ((mem_toLanes m k).2 hb) (by simp [h])
  · rintro rfl; exact toLanes_zero

/-- The lowest lane of a mask that is not empty is a lane of the mask. -/
theorem lowLane_mem {m : Mask} (h : m ≠ 0) : m.getLsbD (lowLane m) = true := by
  rw [← mem_toLanes, lowLane]
  cases hl : Mask.toLanes m with
  | nil => exact absurd (toLanes_eq_nil.1 hl) h
  | cons a t => exact List.mem_cons_self ..

theorem lowLane_lt {m : Mask} (h : m ≠ 0) : lowLane m < 32 := BitVec.lt_of_getLsbD (lowLane_mem h)

theorem toLanes_nodup (m : Mask) : (Mask.toLanes m).Nodup := (List.nodup_range).filter _

theorem orFlagsOf_zero (f : Nat → Flags) : orFlagsOf 0 f = 0 := by rw [orFlagsOf, toLanes_zero]; rfl

end Sys2Proof.Machine
end

