-- ==== Sys2Proof/Laws/Regs.lean ====
section
/-! SUPPORT. The laws of registers, predicates and poison: what each reads after each write, and that a write leaves every other
part of the group. -/
namespace Sys2Proof.Machine

theorem vkey_inj {i j k l : Nat} (hk : k < 32) (hl : l < 32) : vkey i k = vkey j l ↔ i = j ∧ k = l := by
  unfold vkey; omega

theorem getV_setV (g : Group) (i l k j : Nat) (x : Word) (hl : l < 32) (hj : j < 32) :
    (g.setV i l x).getV k j = if k = i ∧ j = l then x else g.getV k j := by
  simp only [Group.getV, Group.setV, aval_aset, vkey_inj hj hl]

theorem getV_foldl_setV (i : Nat) (f : Nat → Word) (ls : List Nat) (g : Group) (k j : Nat) (hj : j < 32) (hls : ∀ l ∈ ls, l < 32) :
    (ls.foldl (fun (h : Group) l => h.setV i l (f l)) g).getV k j = if k = i ∧ j ∈ ls then f j else g.getV k j := by
  induction ls generalizing g with
  | nil => simp
  | cons a t ih =>
    rw [List.foldl_cons, ih _ (fun l hl => hls l (List.mem_cons_of_mem _ hl)), getV_setV _ _ _ _ _ _ (hls a (List.mem_cons_self ..)) hj]
    by_cases h1 : k = i
    · by_cases h2 : j = a
      · subst h1; subst h2; simp
      · simp [h1, h2]
    · simp [h1]

theorem foldl_setV_eq (i : Nat) (f : Nat → Word) (ls : List Nat) (g : Group) :
    ∃ v, ls.foldl (fun (h : Group) l => h.setV i l (f l)) g = { g with v := v } := by
  induction ls generalizing g with
  | nil => exact ⟨g.v, rfl⟩
  | cons a t ih =>
    obtain ⟨v, hv⟩ := ih (g.setV i a (f a))
    exact ⟨v, by rw [List.foldl_cons, hv]; rfl⟩

/-- A write of a lane register changes the lane registers and their poison only. -/
theorem writeV_eq (g : Group) (i : Nat) (m x : Mask) (f : Nat → Word) :
    ∃ v p, g.writeV i m x f = { g with v := v, vPoison := p } := by
  obtain ⟨v, hv⟩ := foldl_setV_eq i f (Mask.toLanes m) g
  exact ⟨v, _, by rw [Group.writeV, hv]; rfl⟩

theorem toLanes_lt (m : Mask) : ∀ l ∈ Mask.toLanes m, l < 32 :=
  fun l hl => BitVec.lt_of_getLsbD ((mem_toLanes m l).1 hl)

/-- A lane register after a write of one: the lanes of the mask take the new values. -/
theorem getV_writeV (g : Group) (i : Nat) (m x : Mask) (f : Nat → Word) (k l : Nat) (hl : l < 32) :
    (g.writeV i m x f).getV k l = if k = i ∧ m.getLsbD l = true then f l else g.getV k l := by
  have h := getV_foldl_setV i f (Mask.toLanes m) g k l hl (toLanes_lt m)
  simp only [mem_toLanes] at h
  exact h

theorem poisonV_setPoisonV (g : Group) (i : Nat) (m x : Mask) (k l : Nat) (hl : l < 32) :
    ((g.setPoisonV i m x).poisonV k).getLsbD l = if k = i ∧ m.getLsbD l = true then x.getLsbD l else (g.poisonV k).getLsbD l := by
  simp only [Group.poisonV, Group.setPoisonV, aval_aset]
  by_cases h : k = i
  · subst h
    simp only [true_and, if_true, BitVec.getLsbD_or, BitVec.getLsbD_and, BitVec.getLsbD_not, hl, decide_true, Bool.true_and]
    cases m.getLsbD l <;> simp
  · simp [h]

theorem poisonV_writeV (g : Group) (i : Nat) (m x : Mask) (f : Nat → Word) (k l : Nat) (hl : l < 32) :
    ((g.writeV i m x f).poisonV k).getLsbD l = if k = i ∧ m.getLsbD l = true then x.getLsbD l else (g.poisonV k).getLsbD l := by
  obtain ⟨v, hv⟩ := foldl_setV_eq i f (Mask.toLanes m) g
  rw [Group.writeV, hv]
  exact poisonV_setPoisonV _ i m x k l hl

@[simp] theorem getS_writeV (g : Group) (i : Nat) (m x : Mask) (f : Nat → Word) (k : Nat) : (g.writeV i m x f).getS k = g.getS k := by
  obtain ⟨v, p, h⟩ := writeV_eq g i m x f; rw [h]; rfl
@[simp] theorem poisonS_writeV (g : Group) (i : Nat) (m x : Mask) (f : Nat → Word) (k : Nat) :
    (g.writeV i m x f).poisonS k = g.poisonS k := by
  obtain ⟨v, p, h⟩ := writeV_eq g i m x f; rw [h]; rfl
@[simp] theorem getP_writeV (g : Group) (i : Nat) (m x : Mask) (f : Nat → Word) (k : Nat) : (g.writeV i m x f).getP k = g.getP k := by
  obtain ⟨v, p, h⟩ := writeV_eq g i m x f; rw [h]; rfl

theorem getS_setS (g : Group) (i : Nat) (x : Word) (b : Bool) (k : Nat) :
    (g.setS i x b).getS k = if k = i then x else g.getS k := by simp only [Group.getS, Group.setS, aval_aset]
@[simp] theorem getV_setS (g : Group) (i : Nat) (x : Word) (b : Bool) (k l : Nat) : (g.setS i x b).getV k l = g.getV k l := rfl
@[simp] theorem poisonV_setS (g : Group) (i : Nat) (x : Word) (b : Bool) (k : Nat) : (g.setS i x b).poisonV k = g.poisonV k := rfl
@[simp] theorem getP_setS (g : Group) (i : Nat) (x : Word) (b : Bool) (k : Nat) : (g.setS i x b).getP k = g.getP k := rfl

theorem getLsbD_bit64 (i k : Nat) (hk : k < 64) : (1#64 <<< i).getLsbD k = decide (k = i) := by
  rw [BitVec.getLsbD_shiftLeft, BitVec.getLsbD_one]
  rcases Nat.lt_trichotomy k i with h | h | h
  · simp [h, Nat.ne_of_lt h]
  · subst h; simp [hk]
  · simp [hk, Nat.not_lt_of_lt h, Nat.ne_of_gt h, Nat.sub_ne_zero_of_lt h]

theorem poisonS_setS (g : Group) (i : Nat) (x : Word) (b : Bool) (k : Nat) (hk : k < 64) :
    (g.setS i x b).poisonS k = if k = i then b else g.poisonS k := by
  cases b <;>
    simp only [Group.poisonS, Group.setS, if_true, if_false, Bool.false_eq_true, BitVec.getLsbD_or, BitVec.getLsbD_and,
      BitVec.getLsbD_not, getLsbD_bit64 _ _ hk, hk, decide_true, Bool.true_and]
  · by_cases h : k = i <;> simp [h]
  · by_cases h : k = i <;> simp [h]

theorem getP_setP (g : Group) (i : Nat) (m x : Mask) (k l : Nat) (hl : l < 32) :
    ((g.setP i m x).getP k).getLsbD l = if k ≠ 7 ∧ k = i ∧ m.getLsbD l = true then x.getLsbD l else (g.getP k).getLsbD l := by
  unfold Group.setP Group.getP
  by_cases h7 : i = 7
  · subst h7
    by_cases h : k = 7 <;> simp [h]
  · rw [if_neg h7]
    by_cases hk : k = 7
    · simp [hk]
    · simp only [hk, if_false, aval_aset]
      by_cases h : k = i
      · subst h
        simp only [ne_eq, hk, not_false_eq_true, true_and, if_true, BitVec.getLsbD_or, BitVec.getLsbD_and, BitVec.getLsbD_not, hl,
          decide_true, Bool.true_and]
        cases m.getLsbD l <;> simp
      · simp [h]
/-- p7 reads true, whatever is written to it (R30). -/
theorem getP_seven (g : Group) : g.getP 7 = BitVec.allOnes 32 := rfl
theorem setP_seven (g : Group) (m x : Mask) : g.setP 7 m x = g := rfl
/-- A write of a predicate changes the predicates only. -/
theorem setP_eq (g : Group) (i : Nat) (m x : Mask) : ∃ p, g.setP i m x = { g with p := p } := by
  unfold Group.setP
  split
  · exact ⟨g.p, rfl⟩
  · exact ⟨_, rfl⟩
@[simp] theorem getV_setP (g : Group) (i : Nat) (m x : Mask) (k l : Nat) : (g.setP i m x).getV k l = g.getV k l := by
  obtain ⟨p, h⟩ := setP_eq g i m x; rw [h]; rfl
@[simp] theorem getS_setP (g : Group) (i : Nat) (m x : Mask) (k : Nat) : (g.setP i m x).getS k = g.getS k := by
  obtain ⟨p, h⟩ := setP_eq g i m x; rw [h]; rfl
@[simp] theorem poisonV_setP (g : Group) (i : Nat) (m x : Mask) (k : Nat) : (g.setP i m x).poisonV k = g.poisonV k := by
  obtain ⟨p, h⟩ := setP_eq g i m x; rw [h]; rfl
@[simp] theorem poisonS_setP (g : Group) (i : Nat) (m x : Mask) (k : Nat) : (g.setP i m x).poisonS k = g.poisonS k := by
  obtain ⟨p, h⟩ := setP_eq g i m x; rw [h]; rfl

end Sys2Proof.Machine
end

