-- ==== Sys2Proof/Laws/State.lean ====
section
/-! SUPPORT. The laws of the parts of the state: what a group, a core, a block, a grid and a partition read after each update, and that an
update of one leaves every other part. -/
namespace Sys2Proof.Machine

variable {α : Type}

/-- An update of the entry of a key, read at the key. -/
theorem aget?_amod_self (k : Nat) (f : α → α) (m : List (Nat × α)) : aget? k (amod k f m) = (aget? k m).map f := by
  unfold amod
  split
  · rename_i v h; rw [aget?_aput_self, h]; rfl
  · rename_i h; rw [h]; rfl
theorem aget?_amod_ne {j k : Nat} (h : j ≠ k) (f : α → α) (m : List (Nat × α)) : aget? j (amod k f m) = aget? j m := by
  unfold amod
  split
  · exact aget?_aput_ne h _ _
  · rfl
theorem aget?_amod (j k : Nat) (f : α → α) (m : List (Nat × α)) :
    aget? j (amod k f m) = if j = k then (aget? k m).map f else aget? j m := by
  split
  · subst j; exact aget?_amod_self k f m
  · exact aget?_amod_ne ‹_› f m
/-- A second write at a key replaces the first. -/
@[simp] theorem aput_aput (k : Nat) (v w : α) (m : List (Nat × α)) : aput k v (aput k w m) = aput k v m := by
  induction m with
  | nil => simp [aput]
  | cons e t ih =>
    obtain ⟨j, x⟩ := e
    by_cases h1 : k < j
    · simp [aput, h1]
    · by_cases h2 : k = j
      · subst h2; simp [aput]
      · simp only [aput, h1, h2, if_false, ih]
theorem amod_of_some {k : Nat} {v : α} {m : List (Nat × α)} (f : α → α) (h : aget? k m = some v) : amod k f m = aput k (f v) m := by
  unfold amod; rw [h]
@[simp] theorem amod_aput (k : Nat) (f : α → α) (v : α) (m : List (Nat × α)) : amod k f (aput k v m) = aput k (f v) m := by
  rw [amod_of_some f (aget?_aput_self k v m), aput_aput]

/-! ## Groups -/

@[simp] theorem group?_setGroup_self (s : State) (k : Nat) (g : Group) : (s.setGroup k g).group? k = some g := aget?_aput_self k g _
theorem group?_setGroup_ne (s : State) {j k : Nat} (h : j ≠ k) (g : Group) : (s.setGroup k g).group? j = s.group? j :=
  aget?_aput_ne h _ _
theorem group?_modGroup (s : State) (j k : Nat) (f : Group → Group) :
    (s.modGroup k f).group? j = if j = k then (s.group? k).map f else s.group? j := aget?_amod j k f _
@[simp] theorem setGroup_setGroup (s : State) (k : Nat) (g h : Group) : (s.setGroup k g).setGroup k h = s.setGroup k h := by
  simp [State.setGroup]
theorem modGroup_of_some {s : State} {k : Nat} {g : Group} (f : Group → Group) (h : s.group? k = some g) :
    s.modGroup k f = s.setGroup k (f g) := by
  simp only [State.modGroup, State.setGroup, amod_of_some f h]
@[simp] theorem modGroup_setGroup (s : State) (k : Nat) (f : Group → Group) (g : Group) :
    (s.setGroup k g).modGroup k f = s.setGroup k (f g) := by
  simp [State.setGroup, State.modGroup]
@[simp] theorem setGroup_mem (s : State) (k : Nat) (g : Group) : (s.setGroup k g).mem = s.mem := rfl
@[simp] theorem setGroup_cores (s : State) (k : Nat) (g : Group) : (s.setGroup k g).cores = s.cores := rfl
@[simp] theorem setGroup_blocks (s : State) (k : Nat) (g : Group) : (s.setGroup k g).blocks = s.blocks := rfl
@[simp] theorem setGroup_grids (s : State) (k : Nat) (g : Group) : (s.setGroup k g).grids = s.grids := rfl
@[simp] theorem setGroup_parts (s : State) (k : Nat) (g : Group) : (s.setGroup k g).parts = s.parts := rfl
@[simp] theorem setGroup_cur (s : State) (k : Nat) (g : Group) : (s.setGroup k g).cur = s.cur := rfl
@[simp] theorem setGroup_tick (s : State) (k : Nat) (g : Group) : (s.setGroup k g).tick = s.tick := rfl
@[simp] theorem setGroup_core (s : State) (k : Nat) (g : Group) (c : Nat) : (s.setGroup k g).core c = s.core c := rfl
@[simp] theorem setGroup_part (s : State) (k : Nat) (g : Group) (p : Nat) : (s.setGroup k g).part p = s.part p := rfl
@[simp] theorem setGroup_blockOf (s : State) (k : Nat) (g x : Group) : (s.setGroup k g).blockOf x = s.blockOf x := rfl
@[simp] theorem modGroup_mem (s : State) (k : Nat) (f : Group → Group) : (s.modGroup k f).mem = s.mem := rfl
@[simp] theorem modGroup_cores (s : State) (k : Nat) (f : Group → Group) : (s.modGroup k f).cores = s.cores := rfl
@[simp] theorem modGroup_blocks (s : State) (k : Nat) (f : Group → Group) : (s.modGroup k f).blocks = s.blocks := rfl
@[simp] theorem modGroup_grids (s : State) (k : Nat) (f : Group → Group) : (s.modGroup k f).grids = s.grids := rfl
@[simp] theorem modGroup_parts (s : State) (k : Nat) (f : Group → Group) : (s.modGroup k f).parts = s.parts := rfl
@[simp] theorem modGroup_cur (s : State) (k : Nat) (f : Group → Group) : (s.modGroup k f).cur = s.cur := rfl
@[simp] theorem modGroup_tick (s : State) (k : Nat) (f : Group → Group) : (s.modGroup k f).tick = s.tick := rfl
@[simp] theorem modGroup_core (s : State) (k : Nat) (f : Group → Group) (c : Nat) : (s.modGroup k f).core c = s.core c := rfl
@[simp] theorem modGroup_part (s : State) (k : Nat) (f : Group → Group) (p : Nat) : (s.modGroup k f).part p = s.part p := rfl

/-! ## Cores -/

theorem core_of_some {s : State} {c : Nat} {k : Core} (h : aget? c s.cores = some k) : s.core c = k := by
  unfold State.core aval; rw [h]; rfl
theorem core_modCore_self {s : State} {c : Nat} {k : Core} (f : Core → Core) (h : aget? c s.cores = some k) :
    (s.modCore c f).core c = f k := by
  refine core_of_some ?_
  show aget? c (amod c f s.cores) = _
  rw [aget?_amod_self, h]; rfl
theorem core_modCore_ne (s : State) {c d : Nat} (h : d ≠ c) (f : Core → Core) : (s.modCore c f).core d = s.core d := by
  show aval _ d (amod c f s.cores) = aval _ d s.cores
  unfold aval; rw [aget?_amod_ne h]
theorem cores_modCore_self {s : State} {c : Nat} {k : Core} (f : Core → Core) (h : aget? c s.cores = some k) :
    aget? c (s.modCore c f).cores = some (f k) := by
  show aget? c (amod c f s.cores) = _
  rw [aget?_amod_self, h]; rfl
theorem cores_modCore_ne (s : State) {c d : Nat} (h : d ≠ c) (f : Core → Core) :
    aget? d (s.modCore c f).cores = aget? d s.cores := aget?_amod_ne h f _
@[simp] theorem modCore_mem (s : State) (c : Nat) (f : Core → Core) : (s.modCore c f).mem = s.mem := rfl
@[simp] theorem modCore_groups (s : State) (c : Nat) (f : Core → Core) : (s.modCore c f).groups = s.groups := rfl
@[simp] theorem modCore_blocks (s : State) (c : Nat) (f : Core → Core) : (s.modCore c f).blocks = s.blocks := rfl
@[simp] theorem modCore_grids (s : State) (c : Nat) (f : Core → Core) : (s.modCore c f).grids = s.grids := rfl
@[simp] theorem modCore_parts (s : State) (c : Nat) (f : Core → Core) : (s.modCore c f).parts = s.parts := rfl
@[simp] theorem modCore_cur (s : State) (c : Nat) (f : Core → Core) : (s.modCore c f).cur = s.cur := rfl
@[simp] theorem modCore_tick (s : State) (c : Nat) (f : Core → Core) : (s.modCore c f).tick = s.tick := rfl
@[simp] theorem modCore_group? (s : State) (c : Nat) (f : Core → Core) (k : Nat) : (s.modCore c f).group? k = s.group? k := rfl
@[simp] theorem modCore_part (s : State) (c : Nat) (f : Core → Core) (p : Nat) : (s.modCore c f).part p = s.part p := rfl
@[simp] theorem modCore_blockOf (s : State) (c : Nat) (f : Core → Core) (g : Group) : (s.modCore c f).blockOf g = s.blockOf g := rfl

/-! ## Blocks, grids and partitions -/

theorem blocks_modBlock_self {s : State} {b : Nat} {k : Block} (f : Block → Block) (h : aget? b s.blocks = some k) :
    aget? b (s.modBlock b f).blocks = some (f k) := by
  show aget? b (amod b f s.blocks) = _
  rw [aget?_amod_self, h]; rfl
theorem blocks_modBlock_ne (s : State) {b c : Nat} (h : c ≠ b) (f : Block → Block) :
    aget? c (s.modBlock b f).blocks = aget? c s.blocks := aget?_amod_ne h f _
@[simp] theorem modBlock_mem (s : State) (b : Nat) (f : Block → Block) : (s.modBlock b f).mem = s.mem := rfl
@[simp] theorem modBlock_groups (s : State) (b : Nat) (f : Block → Block) : (s.modBlock b f).groups = s.groups := rfl
@[simp] theorem modBlock_cores (s : State) (b : Nat) (f : Block → Block) : (s.modBlock b f).cores = s.cores := rfl
@[simp] theorem modBlock_grids (s : State) (b : Nat) (f : Block → Block) : (s.modBlock b f).grids = s.grids := rfl
@[simp] theorem modBlock_parts (s : State) (b : Nat) (f : Block → Block) : (s.modBlock b f).parts = s.parts := rfl
@[simp] theorem modBlock_cur (s : State) (b : Nat) (f : Block → Block) : (s.modBlock b f).cur = s.cur := rfl
@[simp] theorem modBlock_group? (s : State) (b : Nat) (f : Block → Block) (k : Nat) : (s.modBlock b f).group? k = s.group? k := rfl
@[simp] theorem modBlock_core (s : State) (b : Nat) (f : Block → Block) (c : Nat) : (s.modBlock b f).core c = s.core c := rfl
theorem grid_modGrid_self {s : State} {p q : Nat} {g : Grid} (f : Grid → Grid) (h : aget? (gridKey p q) s.grids = some g) :
    aget? (gridKey p q) (s.modGrid p q f).grids = some (f g) := by
  show aget? _ (amod _ f s.grids) = _
  rw [aget?_amod_self, h]; rfl
@[simp] theorem modGrid_mem (s : State) (p q : Nat) (f : Grid → Grid) : (s.modGrid p q f).mem = s.mem := rfl
@[simp] theorem modGrid_groups (s : State) (p q : Nat) (f : Grid → Grid) : (s.modGrid p q f).groups = s.groups := rfl
@[simp] theorem modGrid_cores (s : State) (p q : Nat) (f : Grid → Grid) : (s.modGrid p q f).cores = s.cores := rfl
@[simp] theorem modGrid_blocks (s : State) (p q : Nat) (f : Grid → Grid) : (s.modGrid p q f).blocks = s.blocks := rfl
@[simp] theorem modPart_mem (s : State) (p : Nat) (f : Partition → Partition) : (s.modPart p f).mem = s.mem := rfl
@[simp] theorem modPart_groups (s : State) (p : Nat) (f : Partition → Partition) : (s.modPart p f).groups = s.groups := rfl
@[simp] theorem modPart_cores (s : State) (p : Nat) (f : Partition → Partition) : (s.modPart p f).cores = s.cores := rfl
@[simp] theorem modPart_blocks (s : State) (p : Nat) (f : Partition → Partition) : (s.modPart p f).blocks = s.blocks := rfl
theorem part_modPart_self {s : State} {p : Nat} {k : Partition} (f : Partition → Partition) (h : aget? p s.parts = some k) :
    (s.modPart p f).part p = f k := by
  show aval _ p (amod p f s.parts) = _
  unfold aval; rw [aget?_amod_self, h]; rfl
@[simp] theorem takeFree_mem (s : State) (n : Nat) : (s.takeFree n).mem = s.mem := rfl
@[simp] theorem takeFree_groups (s : State) (n : Nat) : (s.takeFree n).groups = s.groups := rfl
@[simp] theorem takeFree_cores (s : State) (n : Nat) : (s.takeFree n).cores = s.cores := rfl
@[simp] theorem takeFree_blocks (s : State) (n : Nat) : (s.takeFree n).blocks = s.blocks := rfl
@[simp] theorem takeFree_grids (s : State) (n : Nat) : (s.takeFree n).grids = s.grids := rfl
@[simp] theorem takeFree_parts (s : State) (n : Nat) : (s.takeFree n).parts = s.parts := rfl
@[simp] theorem takeFree_requests (s : State) (n : Nat) : (s.takeFree n).requests = s.requests := rfl
@[simp] theorem takeFree_tick (s : State) (n : Nat) : (s.takeFree n).tick = s.tick := rfl
@[simp] theorem takeFree_cur (s : State) (n : Nat) : (s.takeFree n).cur = s.cur := rfl
@[simp] theorem takeFree_group? (s : State) (n k : Nat) : (s.takeFree n).group? k = s.group? k := rfl
@[simp] theorem takeFree_core (s : State) (n c : Nat) : (s.takeFree n).core c = s.core c := rfl
@[simp] theorem takeFree_freeCtr (s : State) (n : Nat) : (s.takeFree n).freeCtr = s.freeCtr + n := rfl
@[simp] theorem takeFree_takeFree (s : State) (n k : Nat) : (s.takeFree n).takeFree k = s.takeFree (n + k) := by
  simp [State.takeFree, Nat.add_assoc]
@[simp] theorem send_mem (s : State) (m : Msg) : (s.send m).mem = s.mem := rfl
@[simp] theorem send_groups (s : State) (m : Msg) : (s.send m).groups = s.groups := rfl
@[simp] theorem send_cores (s : State) (m : Msg) : (s.send m).cores = s.cores := rfl
@[simp] theorem send_parts (s : State) (m : Msg) : (s.send m).parts = s.parts := rfl
@[simp] theorem send_requests (s : State) (m : Msg) : (s.send m).requests = s.requests := rfl
/-- A message without a request leaves at once. -/
@[simp] theorem send_out (s : State) (m : Msg) (h : m.tag? = none) : (s.send m).out = s.out ++ [m] := by simp [State.send, h]

/-! ## The mooring queue and the notice list -/

theorem length_aput_of_none {k : Nat} {v : α} {m : List (Nat × α)} (h : aget? k m = none) : (aput k v m).length = m.length + 1 := by
  induction m with
  | nil => rfl
  | cons e t ih =>
    obtain ⟨j, x⟩ := e
    by_cases hj : j = k
    · simp [aget?, hj] at h
    · simp only [aget?, hj, if_false] at h
      by_cases h1 : k < j
      · simp [aput, h1]
      · simp only [aput, h1, Ne.symm hj, if_false, List.length_cons, ih h]
theorem aget?_isSome_mem {k : Nat} {m : List (Nat × α)} (h : (aget? k m).isSome = true) : k ∈ m.map Prod.fst := by
  induction m with
  | nil => simp [aget?] at h
  | cons e t ih =>
    obtain ⟨j, x⟩ := e
    by_cases hj : j = k
    · simp [hj]
    · simp only [aget?, hj, if_false] at h
      exact List.mem_cons_of_mem _ (ih h)
theorem length_le_of_nodup_subset {l₁ l₂ : List Nat} (h : l₁.Nodup) (hs : ∀ x ∈ l₁, x ∈ l₂) : l₁.length ≤ l₂.length := by
  induction l₁ generalizing l₂ with
  | nil => exact Nat.zero_le _
  | cons a t ih =>
    have ha := hs a (List.mem_cons_self ..)
    have hn := List.nodup_cons.1 h
    have h1 := ih hn.2 (l₂ := l₂.erase a) (fun x hx =>
      (List.mem_erase_of_ne (fun (e : x = a) => hn.1 (e ▸ hx))).2 (hs x (List.mem_cons_of_mem _ hx)))
    have h2 := List.length_erase_of_mem ha
    have h3 := List.length_pos_of_mem ha
    simp only [List.length_cons]
    omega
/-- A map of fewer than n entries has a free key below n. -/
theorem afree_of_length {n : Nat} {m : List (Nat × α)} (h : m.length < n) : ∃ k, afree n m = some k ∧ k < n ∧ aget? k m = none := by
  cases hf : afree n m with
  | some k =>
    have h1 := List.find?_some hf
    have h2 := List.mem_of_find?_eq_some hf
    simp only [Option.isNone_iff_eq_none] at h1
    exact ⟨k, rfl, List.mem_range.1 h2, h1⟩
  | none =>
    exfalso
    have h1 := List.find?_eq_none.1 hf
    have h2 : List.range n ⊆ m.map Prod.fst := by
      intro k hk
      have := h1 k hk
      exact aget?_isSome_mem (by cases ha : aget? k m <;> simp_all)
    have h3 := length_le_of_nodup_subset List.nodup_range (fun x hx => h2 hx)
    simp at h3
    omega

end Sys2Proof.Machine
end

