-- ==== Sys2Proof/Laws/Issue.lean ====
section
/-! SUPPORT. The laws of issue and commit: what a word does once it passes its checks, how it traps, and what its commit writes. -/
namespace Sys2Proof.Machine

/-- A word that passes its checks is its operation on its group and ACTIVE. -/
theorem issueWith_passes {i : Instr} {s : State} {g : Group} (bad : Group → List Nat) (runs : Group → List RegRun)
    (body : Group → Mask → Res State) (hg : s.group? s.cur.key = some g) (h1 : s.cur.slot1 = true → stopsSlot1 (wordOf i) = false)
    (h0 : s.cur.slot1 = false → g.inEntry = true ∨ g.divided = false ∨ slot0Waits (wordOf i) = false)
    (hc : decodeChecks i g s.cur.slot1 (bad g) (runs g) = none) :
    issueWith i s bad runs body = finish s (body g (g.active s.cur.slot1 (guardOf i).1 (guardOf i).2)) := by
  unfold issueWith
  rw [hg]
  dsimp only
  rw [if_neg (by cases h : s.cur.slot1 <;> simp_all), if_neg (by cases h : s.cur.slot1 <;> simp_all <;> grind), hc]
theorem issue_passes {i : Instr} {s : State} {g : Group} (body : Group → Mask → Res State) (hg : s.group? s.cur.key = some g)
    (h1 : s.cur.slot1 = true → stopsSlot1 (wordOf i) = false)
    (h0 : s.cur.slot1 = false → g.inEntry = true ∨ g.divided = false ∨ slot0Waits (wordOf i) = false)
    (hc : decodeChecks i g s.cur.slot1 [] [] = none) :
    issue i s body = finish s (body g (g.active s.cur.slot1 (guardOf i).1 (guardOf i).2)) :=
  issueWith_passes (fun _ => []) (fun _ => []) body hg h1 h0 hc
/-- A word that fails a check of R51, R57 or R280 traps. -/
theorem issueWith_traps {i : Instr} {s : State} {g : Group} {t : Trap} (bad : Group → List Nat) (runs : Group → List RegRun)
    (body : Group → Mask → Res State) (hg : s.group? s.cur.key = some g) (h1 : s.cur.slot1 = true → stopsSlot1 (wordOf i) = false)
    (h0 : s.cur.slot1 = false → g.inEntry = true ∨ g.divided = false ∨ slot0Waits (wordOf i) = false)
    (hc : decodeChecks i g s.cur.slot1 (bad g) (runs g) = some t) :
    issueWith i s bad runs body = .next (s.takeTrapAt s.cur.key g s.cur.slot1 (g.pc s.cur.slot1) t) := by
  unfold issueWith
  rw [hg]
  dsimp only
  rw [if_neg (by cases h : s.cur.slot1 <;> simp_all), if_neg (by cases h : s.cur.slot1 <;> simp_all <;> grind), hc]
  simp only [finish, hg]
@[simp] theorem finish_ok (s t : State) : finish s (.ok t) = .next t := rfl
/-- A word's own trap (R7). -/
theorem finish_trap {s : State} {g : Group} (t : Trap) (hg : s.group? s.cur.key = some g) :
    finish s (.error (.trap t)) = .next (s.takeTrapAt s.cur.key g s.cur.slot1 (g.pc s.cur.slot1) t) := by simp only [finish, hg]
/-- A word's wait. -/
theorem finish_wait {s t : State} (w : Wait) : finish s (.error (.wait t w)) = .next (t.waitAt w) := rfl

/-- The commit of a word, in a state whose group is known. -/
theorem advance_of_some {s : State} {g : Group} (hg : s.group? s.cur.key = some g) :
    s.advance = s.setGroup s.cur.key (g.advance s.cur.slot1) := modGroup_of_some _ hg
@[simp] theorem advance_setGroup (s : State) (g : Group) :
    (s.setGroup s.cur.key g).advance = s.setGroup s.cur.key (g.advance s.cur.slot1) := by
  simp [State.advance]
@[simp] theorem advance_mem (s : State) : s.advance.mem = s.mem := rfl
@[simp] theorem advance_cores (s : State) : s.advance.cores = s.cores := rfl
@[simp] theorem advance_blocks (s : State) : s.advance.blocks = s.blocks := rfl
@[simp] theorem advance_cur (s : State) : s.advance.cur = s.cur := rfl

/-- A word on its group's own state: with ACTIVE empty the group goes on, and otherwise it takes what the operation gives. -/
theorem groupWord_passes {i : Instr} {s : State} {g h : Group} (f : Group → Mask → Res Group) (hg : s.group? s.cur.key = some g)
    (h1 : s.cur.slot1 = true → stopsSlot1 (wordOf i) = false)
    (h0 : s.cur.slot1 = false → g.inEntry = true ∨ g.divided = false ∨ slot0Waits (wordOf i) = false)
    (hc : decodeChecks i g s.cur.slot1 [] [] = none) (m : Mask) (hm : m = g.active s.cur.slot1 (guardOf i).1 (guardOf i).2)
    (hf : m ≠ 0 → f g m = .ok h) (hz : m = 0 → h = g) :
    groupWord i s f = .next (s.setGroup s.cur.key (h.advance s.cur.slot1)) := by
  unfold groupWord
  rw [issue_passes _ hg h1 h0 hc, ← hm]
  split
  · rename_i e; rw [finish_ok, advance_of_some hg, hz e]
  · rename_i e
    rw [hf e]
    show finish s (.ok (s.setGroup s.cur.key h).advance) = _
    rw [finish_ok, advance_setGroup]
/-- A word on the state that acts once: with ACTIVE not empty. -/
theorem stateWord_passes {i : Instr} {s t : State} {g : Group} (f : Group → Mask → Res State) (hg : s.group? s.cur.key = some g)
    (h1 : s.cur.slot1 = true → stopsSlot1 (wordOf i) = false)
    (h0 : s.cur.slot1 = false → g.inEntry = true ∨ g.divided = false ∨ slot0Waits (wordOf i) = false)
    (hc : decodeChecks i g s.cur.slot1 [] [] = none) (m : Mask) (hm : m = g.active s.cur.slot1 (guardOf i).1 (guardOf i).2)
    (hne : m ≠ 0) (hf : f g m = .ok t) : stateWord i s f = .next t.advance := by
  unfold stateWord
  rw [issue_passes _ hg h1 h0 hc, ← hm, if_neg hne, hf]
  rfl
/-- A word on the state whose operation stops short. -/
theorem stateWord_stops {i : Instr} {s : State} {g : Group} {x : Halt} (f : Group → Mask → Res State) (hg : s.group? s.cur.key = some g)
    (h1 : s.cur.slot1 = true → stopsSlot1 (wordOf i) = false)
    (h0 : s.cur.slot1 = false → g.inEntry = true ∨ g.divided = false ∨ slot0Waits (wordOf i) = false)
    (hc : decodeChecks i g s.cur.slot1 [] [] = none) (m : Mask) (hm : m = g.active s.cur.slot1 (guardOf i).1 (guardOf i).2)
    (hne : m ≠ 0) (hf : f g m = .error x) : stateWord i s f = finish s (.error x) := by
  unfold stateWord
  rw [issue_passes _ hg h1 h0 hc, ← hm, if_neg hne, hf]
  rfl

/-! ## Destinations (R35) -/

/-- A lane register after a destination is written. -/
theorem getV_dst (g : Group) (ud : Bool) (d : Nat) (m x : Mask) (f : Nat → Word) (k l : Nat) (hl : l < 32) :
    (g.dst ud d m x f).getV k l = if ud = false ∧ k = d ∧ m.getLsbD l = true then f l else g.getV k l := by
  cases ud
  · simp [Group.dst, getV_writeV _ _ _ _ _ _ _ hl]
  · simp [Group.dst]
theorem poisonV_dst (g : Group) (ud : Bool) (d : Nat) (m x : Mask) (f : Nat → Word) (k l : Nat) (hl : l < 32) :
    ((g.dst ud d m x f).poisonV k).getLsbD l =
      if ud = false ∧ k = d ∧ m.getLsbD l = true then x.getLsbD l else (g.poisonV k).getLsbD l := by
  cases ud
  · simp [Group.dst, poisonV_writeV _ _ _ _ _ _ _ hl]
  · simp [Group.dst]
/-- A uniform register after a destination is written. -/
theorem getS_dst (g : Group) (ud : Bool) (d : Nat) (m x : Mask) (f : Nat → Word) (k : Nat) :
    (g.dst ud d m x f).getS k = if ud = true ∧ k = d then f (lowLane m) else g.getS k := by
  cases ud <;> simp [Group.dst, getS_setS]
theorem poisonS_dst (g : Group) (ud : Bool) (d : Nat) (m x : Mask) (f : Nat → Word) (k : Nat) (hk : k < 64) :
    (g.dst ud d m x f).poisonS k = if ud = true ∧ k = d then x.getLsbD (lowLane m) else g.poisonS k := by
  cases ud <;> simp [Group.dst, poisonS_setS _ _ _ _ _ hk]
/-- A destination changes registers and their poison only. -/
theorem dst_eq (g : Group) (ud : Bool) (d : Nat) (m x : Mask) (f : Nat → Word) :
    ∃ v p t q, g.dst ud d m x f = { g with v := v, vPoison := p, s := t, sPoison := q } := by
  cases ud
  · obtain ⟨v, p, h⟩ := writeV_eq g d m x f
    exact ⟨v, p, g.s, g.sPoison, h⟩
  · exact ⟨g.v, g.vPoison, _, _, rfl⟩
@[simp] theorem getP_dst (g : Group) (ud : Bool) (d : Nat) (m x : Mask) (f : Nat → Word) (k : Nat) :
    (g.dst ud d m x f).getP k = g.getP k := by
  obtain ⟨v, p, t, q, h⟩ := dst_eq g ud d m x f; rw [h]; rfl

/-! ## The commit -/

@[simp] theorem getV_advance (g : Group) (b : Bool) (k l : Nat) : (g.advance b).getV k l = g.getV k l := by cases b <;> rfl
@[simp] theorem getS_advance (g : Group) (b : Bool) (k : Nat) : (g.advance b).getS k = g.getS k := by cases b <;> rfl
@[simp] theorem getP_advance (g : Group) (b : Bool) (k : Nat) : (g.advance b).getP k = g.getP k := by cases b <;> rfl
@[simp] theorem poisonV_advance (g : Group) (b : Bool) (k : Nat) : (g.advance b).poisonV k = g.poisonV k := by cases b <;> rfl
@[simp] theorem poisonS_advance (g : Group) (b : Bool) (k : Nat) : (g.advance b).poisonS k = g.poisonS k := by cases b <;> rfl
@[simp] theorem pc_advance (g : Group) (b : Bool) : (g.advance b).pc b = g.pc b + 8 := by cases b <;> rfl
@[simp] theorem fpflags_advance (g : Group) (b : Bool) : (g.advance b).fpflags = g.fpflags := by cases b <;> rfl
@[simp] theorem held_advance (g : Group) (b : Bool) : (g.advance b).held = g.held := by cases b <;> rfl

end Sys2Proof.Machine
end

