-- ==== Sys2Proof/Laws/Memory.lean ====
section
/-! SUPPORT. The laws of device memory: a read after a write, and that every operation that changes memory keeps its canonical form (DESIGN CHOICE, log 1).
Every other operation of the machine changes memory through these. -/
namespace Sys2Proof.Machine

theorem readPhys_writePhys (s : State) (a b : Nat) (x : Byte) : (s.writePhys b x).readPhys a = if a = b then x else s.readPhys a := by
  simp only [State.readPhys, State.writePhys]
  exact aval_aset 0 a b x s.mem

theorem wf_writePhys {s : State} (a : Nat) (x : Byte) (h : Memory.wf s.mem) : Memory.wf (s.writePhys a x).mem := wf_aset 0 a x h

/-- A fold of steps that keep a property keeps it. -/
theorem foldl_keeps {σ β : Type} {p : σ → Prop} {f : σ → β → σ} (hf : ∀ s x, p s → p (f s x)) (l : List β) {s : σ} (h : p s) :
    p (l.foldl f s) := by
  induction l generalizing s with
  | nil => exact h
  | cons x t ih => exact ih (hf s x h)

theorem wf_writePhysN {s : State} (a : Nat) (l : List Byte) (poison : Bool) (h : Memory.wf s.mem) :
    Memory.wf (s.writePhysN a l poison).mem :=
  foldl_keeps (p := fun s : State => Memory.wf s.mem) (fun _ _ h => wf_writePhys _ _ h) _ h

/-- The bytes of a run written one after another. -/
theorem readPhys_writes (l : List Byte) (s : State) (a x n : Nat) :
    ((List.range n).foldl (fun s k => s.writePhys (a + k) (l.getD k 0)) s).readPhys x =
      if a ≤ x ∧ x < a + n then l.getD (x - a) 0 else s.readPhys x := by
  induction n with
  | zero => rw [if_neg (by omega)]; rfl
  | succ n ih =>
    rw [List.range_succ, List.foldl_append, List.foldl_cons, List.foldl_nil, readPhys_writePhys, ih]
    by_cases hx : x = a + n
    · subst hx; simp
    · by_cases h1 : a ≤ x ∧ x < a + n
      · rw [if_neg hx, if_pos h1, if_pos ⟨h1.1, by omega⟩]
      · rw [if_neg hx, if_neg h1, if_neg (by omega)]

theorem readPhys_writePhysN (s : State) (a x : Nat) (l : List Byte) (poison : Bool) :
    (s.writePhysN a l poison).readPhys x = if a ≤ x ∧ x < a + l.length then l.getD (x - a) 0 else s.readPhys x :=
  readPhys_writes l s a x l.length

/-- Cells placed by an image keep the form. -/
theorem wf_place {m : List Host.Cell} (l : List Host.Cell) (h : Memory.wf m) : Memory.wf (l.foldl (fun l (e : Host.Cell) => aset 0 e.1 e.2 l) m) :=
  foldl_keeps (p := fun m : List Host.Cell => Memory.wf m) (fun _ _ h => wf_aset 0 _ _ h) l h

/-- Cells taken away by a partition's reset keep the form. -/
theorem wf_filter {m : List Host.Cell} (q : Host.Cell → Bool) (h : Memory.wf m) : Memory.wf (m.filter q) :=
  ⟨h.1.filter q, fun e he => h.2 e ((List.mem_filter.1 he).1)⟩

theorem wf_bootState (tick : DWord) (b : BootImages) (podOk : Bool) : Memory.wf (State.bootState tick b podOk).mem := wf_place b.cells ⟨List.Pairwise.nil, nofun⟩

end Sys2Proof.Machine
end

