-- ==== Sys2Proof/Laws/Words.lean ====
section
/-! SUPPORT. The laws of words: the fields that a packed word holds, and the opcode of an instruction's word. -/
namespace Sys2Proof

theorem extract_one (b : Bool) (w : DWord) (k : Nat) (h : w.extractLsb' k 1 = BitVec.ofBool b) : w.getLsbD k = b := by
  have := congrArg (fun x : BitVec 1 => x.getLsbD 0) h
  simpa using this

/-- The fields of a packed R-form word. -/
theorem wordR_packR (op : BitVec 9) (r : RWord) : wordR (packR op r) = r := by
  cases r
  simp only [wordR, packR]
  congr
  all_goals first
    | (refine extract_one _ _ _ ?_
       simp (disch := decide) only [BitVec.extractLsb'_append_eq_of_le, BitVec.extractLsb'_append_eq_of_add_le]
       exact BitVec.extractLsb'_eq_self)
    | (simp (disch := decide) only [BitVec.extractLsb'_append_eq_of_le, BitVec.extractLsb'_append_eq_of_add_le]
       exact BitVec.extractLsb'_eq_self)
    | exact BitVec.extractLsb'_eq_self
/-- The fields of a packed I-form word. -/
theorem wordI_packI (op : BitVec 9) (r : IWord) : wordI (packI op r) = r := by
  cases r
  simp only [wordI, packI]
  congr
  all_goals first
    | (refine extract_one _ _ _ ?_
       simp (disch := decide) only [BitVec.extractLsb'_append_eq_of_le, BitVec.extractLsb'_append_eq_of_add_le]
       exact BitVec.extractLsb'_eq_self)
    | (simp (disch := decide) only [BitVec.extractLsb'_append_eq_of_le, BitVec.extractLsb'_append_eq_of_add_le]
       exact BitVec.extractLsb'_eq_self)
    | exact BitVec.extractLsb'_eq_self
/-- The fields of a packed M-form word. -/
theorem wordM_packM (op : BitVec 9) (r : MWord) : wordM (packM op r) = r := by
  cases r
  simp only [wordM, packM]
  congr
  all_goals first
    | (refine extract_one _ _ _ ?_
       simp (disch := decide) only [BitVec.extractLsb'_append_eq_of_le, BitVec.extractLsb'_append_eq_of_add_le]
       exact BitVec.extractLsb'_eq_self)
    | (simp (disch := decide) only [BitVec.extractLsb'_append_eq_of_le, BitVec.extractLsb'_append_eq_of_add_le]
       exact BitVec.extractLsb'_eq_self)
    | exact BitVec.extractLsb'_eq_self
/-- The fields of a packed B-form word. -/
theorem wordB_packB (op : BitVec 9) (r : BWord) : wordB (packB op r) = r := by
  cases r
  simp only [wordB, packB]
  congr
  all_goals first
    | (refine extract_one _ _ _ ?_
       simp (disch := decide) only [BitVec.extractLsb'_append_eq_of_le, BitVec.extractLsb'_append_eq_of_add_le]
       exact BitVec.extractLsb'_eq_self)
    | (simp (disch := decide) only [BitVec.extractLsb'_append_eq_of_le, BitVec.extractLsb'_append_eq_of_add_le]
       exact BitVec.extractLsb'_eq_self)
    | exact BitVec.extractLsb'_eq_self

namespace Machine

theorem op_packR (op : BitVec 9) (r : RWord) : opField (packR op r) = op.toNat := by
  simp (disch := decide) only [opField, packR, BitVec.extractLsb'_append_eq_of_le, BitVec.extractLsb'_append_eq_of_add_le]
  exact congrArg BitVec.toNat BitVec.extractLsb'_eq_self
theorem op_packI (op : BitVec 9) (r : IWord) : opField (packI op r) = op.toNat := by
  simp (disch := decide) only [opField, packI, BitVec.extractLsb'_append_eq_of_le, BitVec.extractLsb'_append_eq_of_add_le]
  exact congrArg BitVec.toNat BitVec.extractLsb'_eq_self
theorem op_packM (op : BitVec 9) (r : MWord) : opField (packM op r) = op.toNat := by
  simp (disch := decide) only [opField, packM, BitVec.extractLsb'_append_eq_of_le, BitVec.extractLsb'_append_eq_of_add_le]
  exact congrArg BitVec.toNat BitVec.extractLsb'_eq_self
theorem op_packB (op : BitVec 9) (r : BWord) : opField (Sys2Proof.packB op r) = op.toNat := by
  simp (disch := decide) only [opField, Sys2Proof.packB, BitVec.extractLsb'_append_eq_of_le, BitVec.extractLsb'_append_eq_of_add_le]
  exact congrArg BitVec.toNat BitVec.extractLsb'_eq_self
theorem full_packR (op : BitVec 9) (r : RWord) : (packR op r).getLsbD 63 = false := by
  refine extract_one _ _ _ ?_
  simp (disch := decide) only [packR, BitVec.extractLsb'_append_eq_of_le]
  rfl
theorem full_packI (op : BitVec 9) (r : IWord) : (packI op r).getLsbD 63 = false := by
  refine extract_one _ _ _ ?_
  simp (disch := decide) only [packI, BitVec.extractLsb'_append_eq_of_le]
  rfl
theorem full_packM (op : BitVec 9) (r : MWord) : (packM op r).getLsbD 63 = false := by
  refine extract_one _ _ _ ?_
  simp (disch := decide) only [packM, BitVec.extractLsb'_append_eq_of_le]
  rfl
theorem full_packB (op : BitVec 9) (r : BWord) : (Sys2Proof.packB op r).getLsbD 63 = false := by
  refine extract_one _ _ _ ?_
  simp (disch := decide) only [Sys2Proof.packB, BitVec.extractLsb'_append_eq_of_le]
  rfl

end Machine
end Sys2Proof
end

