-- ==== Sys2Proof/Laws/PerInstr.lean ====
section
/-! SUPPORT. For every instruction: the word that the encoder gives it holds its opcode in the OP field of a full word (R28, R49). An
instruction without an opcode of its own (a pair word, an ILLEGAL_WORD, an event) is under no claim. -/
namespace Sys2Proof.Laws.Opcode
open Sys2Proof Sys2Proof.Machine

/-- The word of the instruction is a full word with the instruction's opcode. -/
def Statement (i : Instr) : Prop :=
  ∀ n, opcodeOf i = some n → ∃ w, encode i = some w ∧ opField w = n ∧ w.getLsbD 63 = false

theorem ofR {i : Instr} {op : BitVec 9} {r : RWord} (h : encode i = some (packR op r)) (ho : opcodeOf i = some op.toNat) : Statement i := by
  intro n hn
  exact ⟨_, h, by rw [op_packR]; exact Option.some.inj (ho.symm.trans hn), full_packR _ _⟩
theorem ofI {i : Instr} {op : BitVec 9} {r : IWord} (h : encode i = some (packI op r)) (ho : opcodeOf i = some op.toNat) : Statement i := by
  intro n hn
  exact ⟨_, h, by rw [op_packI]; exact Option.some.inj (ho.symm.trans hn), full_packI _ _⟩
theorem ofM {i : Instr} {op : BitVec 9} {r : MWord} (h : encode i = some (packM op r)) (ho : opcodeOf i = some op.toNat) : Statement i := by
  intro n hn
  exact ⟨_, h, by rw [op_packM]; exact Option.some.inj (ho.symm.trans hn), full_packM _ _⟩
theorem ofB {i : Instr} {op : BitVec 9} {r : BWord} (h : encode i = some (Sys2Proof.packB op r)) (ho : opcodeOf i = some op.toNat) :
    Statement i := by
  intro n hn
  exact ⟨_, h, by rw [op_packB]; exact Option.some.inj (ho.symm.trans hn), full_packB _ _⟩
theorem ofNone {i : Instr} (h : opcodeOf i = none) : Statement i := by
  intro n hn
  rw [h] at hn
  cases hn

/-- The opcode in the word that TRAPDETAIL and the checks of R57 read. -/
theorem op_wordOf {i : Instr} {n : Nat} (h : Statement i) (ho : opcodeOf i = some n) :
    opField (wordOf i) = n ∧ (wordOf i).getLsbD 63 = false := by
  obtain ⟨w, hw, h1, h2⟩ := h n ho
  unfold wordOf
  rw [hw]
  exact ⟨h1, h2⟩

theorem nop (r : RWord) : Statement (.nop r) := ofR rfl rfl
theorem exit (r : RWord) : Statement (.exit r) := ofR rfl rfl
theorem bra (r : BWord) : Statement (.bra r) := ofB rfl rfl
theorem brx (r : RWord) : Statement (.brx r) := ofR rfl rfl
theorem call (r : BWord) : Statement (.call r) := ofB rfl rfl
theorem callx (r : RWord) : Statement (.callx r) := ofR rfl rfl
theorem ret (r : RWord) : Statement (.ret r) := ofR rfl rfl
theorem ifThen (r : BWord) : Statement (.ifThen r) := ofB rfl rfl
theorem elseW (r : BWord) : Statement (.elseW r) := ofB rfl rfl
theorem loopW (r : BWord) : Statement (.loopW r) := ofB rfl rfl
theorem endloop (r : BWord) : Statement (.endloop r) := ofB rfl rfl
theorem breakW (r : BWord) : Statement (.breakW r) := ofB rfl rfl
theorem cont (r : BWord) : Statement (.cont r) := ofB rfl rfl
theorem sleep (r : IWord) : Statement (.sleep r) := ofI rfl rfl
theorem illegalWord (w : BitVec 64) (reason : Nat) (h0 h1 : Bool) : Statement (.illegalWord w reason h0 h1) := ofNone rfl
theorem pairWord (r : PairWord) : Statement (.pairWord r) := ofNone rfl
theorem iadd (r : RWord) : Statement (.iadd r) := ofR rfl rfl
theorem iaddI (r : IWord) : Statement (.iaddI r) := ofI rfl rfl
theorem iadd3 (r : RWord) : Statement (.iadd3 r) := ofR rfl rfl
theorem isub (r : RWord) : Statement (.isub r) := ofR rfl rfl
theorem imul (r : RWord) : Statement (.imul r) := ofR rfl rfl
theorem imulI (r : IWord) : Statement (.imulI r) := ofI rfl rfl
theorem imulh (r : RWord) : Statement (.imulh r) := ofR rfl rfl
theorem imad (r : RWord) : Statement (.imad r) := ofR rfl rfl
theorem imadw (r : RWord) : Statement (.imadw r) := ofR rfl rfl
theorem idiv (r : RWord) : Statement (.idiv r) := ofR rfl rfl
theorem irem (r : RWord) : Statement (.irem r) := ofR rfl rfl
theorem imin (r : RWord) : Statement (.imin r) := ofR rfl rfl
theorem imax (r : RWord) : Statement (.imax r) := ofR rfl rfl
theorem isad (r : RWord) : Statement (.isad r) := ofR rfl rfl
theorem idot4 (r : RWord) : Statement (.idot4 r) := ofR rfl rfl
theorem idot8 (r : RWord) : Statement (.idot8 r) := ofR rfl rfl
theorem icmp (r : RWord) : Statement (.icmp r) := ofR rfl rfl
theorem sel (r : RWord) : Statement (.sel r) := ofR rfl rfl
theorem andR (r : RWord) : Statement (.andR r) := ofR rfl rfl
theorem andI (r : IWord) : Statement (.andI r) := ofI rfl rfl
theorem orR (r : RWord) : Statement (.orR r) := ofR rfl rfl
theorem orI (r : IWord) : Statement (.orI r) := ofI rfl rfl
theorem xorR (r : RWord) : Statement (.xorR r) := ofR rfl rfl
theorem xorI (r : IWord) : Statement (.xorI r) := ofI rfl rfl
theorem lop3 (r : RWord) : Statement (.lop3 r) := ofR rfl rfl
theorem shl (r : RWord) : Statement (.shl r) := ofR rfl rfl
theorem shr (r : RWord) : Statement (.shr r) := ofR rfl rfl
theorem sar (r : RWord) : Statement (.sar r) := ofR rfl rfl
theorem shf (r : RWord) : Statement (.shf r) := ofR rfl rfl
theorem bfe (r : RWord) : Statement (.bfe r) := ofR rfl rfl
theorem bfi (r : RWord) : Statement (.bfi r) := ofR rfl rfl
theorem brev (r : RWord) : Statement (.brev r) := ofR rfl rfl
theorem clz (r : RWord) : Statement (.clz r) := ofR rfl rfl
theorem popc (r : RWord) : Statement (.popc r) := ofR rfl rfl
theorem ffs (r : RWord) : Statement (.ffs r) := ofR rfl rfl
theorem prmt (r : RWord) : Statement (.prmt r) := ofR rfl rfl
theorem mov (r : RWord) : Statement (.mov r) := ofR rfl rfl
theorem movi (r : IWord) : Statement (.movi r) := ofI rfl rfl
theorem movis (r : IWord) : Statement (.movis r) := ofI rfl rfl
theorem lea (r : RWord) : Statement (.lea r) := ofR rfl rfl
theorem add64 (r : RWord) : Statement (.add64 r) := ofR rfl rfl
theorem add64I (r : IWord) : Statement (.add64I r) := ofI rfl rfl
theorem sub64 (r : RWord) : Statement (.sub64 r) := ofR rfl rfl
theorem mul64 (r : RWord) : Statement (.mul64 r) := ofR rfl rfl
theorem cmp64 (r : RWord) : Statement (.cmp64 r) := ofR rfl rfl
theorem movs (r : RWord) : Statement (.movs r) := ofR rfl rfl
theorem movrx (r : RWord) : Statement (.movrx r) := ofR rfl rfl
theorem movwx (r : RWord) : Statement (.movwx r) := ofR rfl rfl
theorem shfl (r : RWord) : Statement (.shfl r) := ofR rfl rfl
theorem vote (r : RWord) : Statement (.vote r) := ofR rfl rfl
theorem redux (r : RWord) : Statement (.redux r) := ofR rfl rfl
theorem matchL (r : RWord) : Statement (.matchL r) := ofR rfl rfl
theorem pset (r : RWord) : Statement (.pset r) := ofR rfl rfl
theorem p2v (r : RWord) : Statement (.p2v r) := ofR rfl rfl
theorem v2p (r : RWord) : Statement (.v2p r) := ofR rfl rfl
theorem fadd (r : RWord) : Statement (.fadd r) := ofR rfl rfl
theorem faddI (r : IWord) : Statement (.faddI r) := ofI rfl rfl
theorem fmul (r : RWord) : Statement (.fmul r) := ofR rfl rfl
theorem fmulI (r : IWord) : Statement (.fmulI r) := ofI rfl rfl
theorem ffma (r : RWord) : Statement (.ffma r) := ofR rfl rfl
theorem fmin (r : RWord) : Statement (.fmin r) := ofR rfl rfl
theorem fmax (r : RWord) : Statement (.fmax r) := ofR rfl rfl
theorem fcmp (r : RWord) : Statement (.fcmp r) := ofR rfl rfl
theorem frcp (r : RWord) : Statement (.frcp r) := ofR rfl rfl
theorem frsq (r : RWord) : Statement (.frsq r) := ofR rfl rfl
theorem fsqrt (r : RWord) : Statement (.fsqrt r) := ofR rfl rfl
theorem fdiv (r : RWord) : Statement (.fdiv r) := ofR rfl rfl
theorem fex2 (r : RWord) : Statement (.fex2 r) := ofR rfl rfl
theorem flg2 (r : RWord) : Statement (.flg2 r) := ofR rfl rfl
theorem fsin (r : RWord) : Statement (.fsin r) := ofR rfl rfl
theorem fcos (r : RWord) : Statement (.fcos r) := ofR rfl rfl
theorem ftanh (r : RWord) : Statement (.ftanh r) := ofR rfl rfl
theorem fclass (r : RWord) : Statement (.fclass r) := ofR rfl rfl
theorem frnd (r : RWord) : Statement (.frnd r) := ofR rfl rfl
theorem dadd (r : RWord) : Statement (.dadd r) := ofR rfl rfl
theorem dmul (r : RWord) : Statement (.dmul r) := ofR rfl rfl
theorem dfma (r : RWord) : Statement (.dfma r) := ofR rfl rfl
theorem dmin (r : RWord) : Statement (.dmin r) := ofR rfl rfl
theorem dmax (r : RWord) : Statement (.dmax r) := ofR rfl rfl
theorem dcmp (r : RWord) : Statement (.dcmp r) := ofR rfl rfl
theorem ddiv (r : RWord) : Statement (.ddiv r) := ofR rfl rfl
theorem dsqrt (r : RWord) : Statement (.dsqrt r) := ofR rfl rfl
theorem padd2F16 (r : RWord) : Statement (.padd2F16 r) := ofR rfl rfl
theorem pmul2F16 (r : RWord) : Statement (.pmul2F16 r) := ofR rfl rfl
theorem pfma2F16 (r : RWord) : Statement (.pfma2F16 r) := ofR rfl rfl
theorem pmin2F16 (r : RWord) : Statement (.pmin2F16 r) := ofR rfl rfl
theorem pmax2F16 (r : RWord) : Statement (.pmax2F16 r) := ofR rfl rfl
theorem pcmp2F16 (r : RWord) : Statement (.pcmp2F16 r) := ofR rfl rfl
theorem padd2Bf16 (r : RWord) : Statement (.padd2Bf16 r) := ofR rfl rfl
theorem pmul2Bf16 (r : RWord) : Statement (.pmul2Bf16 r) := ofR rfl rfl
theorem pfma2Bf16 (r : RWord) : Statement (.pfma2Bf16 r) := ofR rfl rfl
theorem pmin2Bf16 (r : RWord) : Statement (.pmin2Bf16 r) := ofR rfl rfl
theorem pmax2Bf16 (r : RWord) : Statement (.pmax2Bf16 r) := ofR rfl rfl
theorem pcmp2Bf16 (r : RWord) : Statement (.pcmp2Bf16 r) := ofR rfl rfl
theorem cvt (r : RWord) : Statement (.cvt r) := ofR rfl rfl
theorem cvtp (r : RWord) : Statement (.cvtp r) := ofR rfl rfl
theorem fsetm (r : RWord) : Statement (.fsetm r) := ofR rfl rfl
theorem clrf (r : RWord) : Statement (.clrf r) := ofR rfl rfl
theorem ld (r : MWord) : Statement (.ld r) := ofM rfl rfl
theorem st (r : MWord) : Statement (.st r) := ofM rfl rfl
theorem ldro (r : MWord) : Statement (.ldro r) := ofM rfl rfl
theorem roinv (r : RWord) : Statement (.roinv r) := ofR rfl rfl
theorem lds (r : MWord) : Statement (.lds r) := ofM rfl rfl
theorem sts (r : MWord) : Statement (.sts r) := ofM rfl rfl
theorem stmap (r : RWord) : Statement (.stmap r) := ofR rfl rfl
theorem stunmap (r : RWord) : Statement (.stunmap r) := ofR rfl rfl
theorem ldm (r : MWord) : Statement (.ldm r) := ofM rfl rfl
theorem stm (r : MWord) : Statement (.stm r) := ofM rfl rfl
theorem pref (r : MWord) : Statement (.pref r) := ofM rfl rfl
theorem cctlWb (r : MWord) : Statement (.cctlWb r) := ofM rfl rfl
theorem cctlInv (r : MWord) : Statement (.cctlInv r) := ofM rfl rfl
theorem cctlWbinv (r : MWord) : Statement (.cctlWbinv r) := ofM rfl rfl
theorem cctlSyswb (r : MWord) : Statement (.cctlSyswb r) := ofM rfl rfl
theorem cctlSysinv (r : MWord) : Statement (.cctlSysinv r) := ofM rfl rfl
theorem fence (r : RWord) : Statement (.fence r) := ofR rfl rfl
theorem probe (r : MWord) : Statement (.probe r) := ofM rfl rfl
theorem atomAdd (r : MWord) : Statement (.atomAdd r) := ofM rfl rfl
theorem atomMin (r : MWord) : Statement (.atomMin r) := ofM rfl rfl
theorem atomMax (r : MWord) : Statement (.atomMax r) := ofM rfl rfl
theorem atomAnd (r : MWord) : Statement (.atomAnd r) := ofM rfl rfl
theorem atomOr (r : MWord) : Statement (.atomOr r) := ofM rfl rfl
theorem atomXor (r : MWord) : Statement (.atomXor r) := ofM rfl rfl
theorem atomExch (r : MWord) : Statement (.atomExch r) := ofM rfl rfl
theorem cas (r : MWord) : Statement (.cas r) := ofM rfl rfl
theorem redAdd (r : MWord) : Statement (.redAdd r) := ofM rfl rfl
theorem redMin (r : MWord) : Statement (.redMin r) := ofM rfl rfl
theorem redMax (r : MWord) : Statement (.redMax r) := ofM rfl rfl
theorem redAnd (r : MWord) : Statement (.redAnd r) := ofM rfl rfl
theorem redOr (r : MWord) : Statement (.redOr r) := ofM rfl rfl
theorem redXor (r : MWord) : Statement (.redXor r) := ofM rfl rfl
theorem atomsAdd (r : MWord) : Statement (.atomsAdd r) := ofM rfl rfl
theorem atomsMin (r : MWord) : Statement (.atomsMin r) := ofM rfl rfl
theorem atomsMax (r : MWord) : Statement (.atomsMax r) := ofM rfl rfl
theorem atomsAnd (r : MWord) : Statement (.atomsAnd r) := ofM rfl rfl
theorem atomsOr (r : MWord) : Statement (.atomsOr r) := ofM rfl rfl
theorem atomsXor (r : MWord) : Statement (.atomsXor r) := ofM rfl rfl
theorem atomsExch (r : MWord) : Statement (.atomsExch r) := ofM rfl rfl
theorem cass (r : MWord) : Statement (.cass r) := ofM rfl rfl
theorem bar (r : RWord) : Statement (.bar r) := ofR rfl rfl
theorem tbinit (r : RWord) : Statement (.tbinit r) := ofR rfl rfl
theorem tbarr (r : RWord) : Statement (.tbarr r) := ofR rfl rfl
theorem tbexp (r : RWord) : Statement (.tbexp r) := ofR rfl rfl
theorem tbwait (r : RWord) : Statement (.tbwait r) := ofR rfl rfl
theorem tbtest (r : RWord) : Statement (.tbtest r) := ofR rfl rfl
theorem tbinv (r : RWord) : Statement (.tbinv r) := ofR rfl rfl
theorem cpy (r : RWord) : Statement (.cpy r) := ofR rfl rfl
theorem cpyt (r : RWord) : Statement (.cpyt r) := ofR rfl rfl
theorem cpyf (r : RWord) : Statement (.cpyf r) := ofR rfl rfl
theorem gath (r : RWord) : Statement (.gath r) := ofR rfl rfl
theorem scat (r : RWord) : Statement (.scat r) := ofR rfl rfl
theorem waitc (r : RWord) : Statement (.waitc r) := ofR rfl rfl
theorem cpyq (r : RWord) : Statement (.cpyq r) := ofR rfl rfl
theorem cpyx (r : RWord) : Statement (.cpyx r) := ofR rfl rfl
theorem mma (r : RWord) : Statement (.mma r) := ofR rfl rfl
theorem mmaq (r : RWord) : Statement (.mmaq r) := ofR rfl rfl
theorem mmaqs (r : RWord) : Statement (.mmaqs r) := ofR rfl rfl
theorem mzero (r : RWord) : Statement (.mzero r) := ofR rfl rfl
theorem mcvt (r : RWord) : Statement (.mcvt r) := ofR rfl rfl
theorem fslot (r : RWord) : Statement (.fslot r) := ofR rfl rfl
theorem launch (r : RWord) : Statement (.launch r) := ofR rfl rfl
theorem cwait (r : RWord) : Statement (.cwait r) := ofR rfl rfl
theorem regacq (r : RWord) : Statement (.regacq r) := ofR rfl rfl
theorem regrel (r : RWord) : Statement (.regrel r) := ofR rfl rfl
theorem treg (r : RWord) : Statement (.treg r) := ofR rfl rfl
theorem tfree (r : RWord) : Statement (.tfree r) := ofR rfl rfl
theorem tsend (r : RWord) : Statement (.tsend r) := ofR rfl rfl
theorem twait (r : RWord) : Statement (.twait r) := ofR rfl rfl
theorem tpoll (r : RWord) : Statement (.tpoll r) := ofR rfl rfl
theorem tmask (r : RWord) : Statement (.tmask r) := ofR rfl rfl
theorem tpermAdd (r : RWord) : Statement (.tpermAdd r) := ofR rfl rfl
theorem tpermRemove (r : RWord) : Statement (.tpermRemove r) := ofR rfl rfl
theorem tpermClear (r : RWord) : Statement (.tpermClear r) := ofR rfl rfl
theorem tret (r : RWord) : Statement (.tret r) := ofR rfl rfl
theorem syscall (r : IWord) : Statement (.syscall r) := ofI rfl rfl
theorem syscallb (r : IWord) : Statement (.syscallb r) := ofI rfl rfl
theorem trapW (r : IWord) : Statement (.trapW r) := ofI rfl rfl
theorem bkpt (r : IWord) : Statement (.bkpt r) := ofI rfl rfl
theorem sret (r : RWord) : Statement (.sret r) := ofR rfl rfl
theorem mqpop (r : RWord) : Statement (.mqpop r) := ofR rfl rfl
theorem mqrplRetry (r : RWord) : Statement (.mqrplRetry r) := ofR rfl rfl
theorem mqrplNext (r : RWord) : Statement (.mqrplNext r) := ofR rfl rfl
theorem mqrplPark (r : RWord) : Statement (.mqrplPark r) := ofR rfl rfl
theorem mqrplResume (r : RWord) : Statement (.mqrplResume r) := ofR rfl rfl
theorem mqrplFail (r : RWord) : Statement (.mqrplFail r) := ofR rfl rfl
theorem mqrplAck (r : RWord) : Statement (.mqrplAck r) := ofR rfl rfl
theorem vsrd (r : RWord) : Statement (.vsrd r) := ofR rfl rfl
theorem vswr (r : RWord) : Statement (.vswr r) := ofR rfl rfl
theorem csrrd (r : IWord) : Statement (.csrrd r) := ofI rfl rfl
theorem csrwr (r : IWord) : Statement (.csrwr r) := ofI rfl rfl
theorem wdpet (r : IWord) : Statement (.wdpet r) := ofI rfl rfl
theorem swapoutReturn (r : RWord) : Statement (.swapoutReturn r) := ofR rfl rfl
theorem swapoutStop (r : RWord) : Statement (.swapoutStop r) := ofR rfl rfl
theorem swapoutDiscard (r : RWord) : Statement (.swapoutDiscard r) := ofR rfl rfl
theorem swapin (r : RWord) : Statement (.swapin r) := ofR rfl rfl
theorem hqput (r : RWord) : Statement (.hqput r) := ofR rfl rfl
theorem sigpostUser (r : RWord) : Statement (.sigpostUser r) := ofR rfl rfl
theorem sigpostStop (r : RWord) : Statement (.sigpostStop r) := ofR rfl rfl
theorem sigpostCont (r : RWord) : Statement (.sigpostCont r) := ofR rfl rfl
theorem sigpostKill (r : RWord) : Statement (.sigpostKill r) := ofR rfl rfl
theorem halt (r : RWord) : Statement (.halt r) := ofR rfl rfl
theorem preempt (r : RWord) : Statement (.preempt r) := ofR rfl rfl
theorem ptinvRange (r : RWord) : Statement (.ptinvRange r) := ofR rfl rfl
theorem ptinvAsid (r : RWord) : Statement (.ptinvAsid r) := ofR rfl rfl
theorem ptinvPartition (r : RWord) : Statement (.ptinvPartition r) := ofR rfl rfl
theorem tcinv (r : RWord) : Statement (.tcinv r) := ofR rfl rfl
theorem tcpin (r : RWord) : Statement (.tcpin r) := ofR rfl rfl
theorem tcpinUnpin (r : RWord) : Statement (.tcpinUnpin r) := ofR rfl rfl
theorem fdiva (r : RWord) : Statement (.fdiva r) := ofR rfl rfl
theorem imad24 (r : RWord) : Statement (.imad24 r) := ofR rfl rfl
theorem hsel2Ll (r : RWord) : Statement (.hsel2Ll r) := ofR rfl rfl
theorem hsel2Lh (r : RWord) : Statement (.hsel2Lh r) := ofR rfl rfl
theorem hsel2Hl (r : RWord) : Statement (.hsel2Hl r) := ofR rfl rfl
theorem hsel2Hh (r : RWord) : Statement (.hsel2Hh r) := ofR rfl rfl
theorem ldnc (r : MWord) : Statement (.ldnc r) := ofM rfl rfl
theorem cvth4 (r : RWord) : Statement (.cvth4 r) := ofR rfl rfl
theorem votex (r : RWord) : Statement (.votex r) := ofR rfl rfl
theorem hpri (r : RWord) : Statement (.hpri r) := ofR rfl rfl
theorem hlive (r : RWord) : Statement (.hlive r) := ofR rfl rfl
theorem hqlen (r : RWord) : Statement (.hqlen r) := ofR rfl rfl
theorem hloc (r : RWord) : Statement (.hloc r) := ofR rfl rfl
theorem hintUnimplemented (code : BitVec 6) (r : RWord) :
    Statement (.hintUnimplemented code r) := ofR rfl (by
  have := code.isLt
  show some _ = some _
  rw [BitVec.toNat_add, BitVec.toNat_setWidth]
  congr 1
  show _ = (384 + _) % 512
  omega)
theorem trace (r : RWord) : Statement (.trace r) := ofR rfl rfl
theorem mark (r : IWord) : Statement (.mark r) := ofI rfl rfl
theorem wpset (r : RWord) : Statement (.wpset r) := ofR rfl rfl
theorem wpsetBp (r : RWord) : Statement (.wpsetBp r) := ofR rfl rfl
theorem wpclr (r : RWord) : Statement (.wpclr r) := ofR rfl rfl
theorem wpclrBp (r : RWord) : Statement (.wpclrBp r) := ofR rfl rfl
theorem perfrd (r : RWord) : Statement (.perfrd r) := ofR rfl rfl
theorem preemptRelease (r : RWord) : Statement (.preemptRelease r) := ofR rfl rfl
theorem endif : Statement .endif := ofR rfl rfl
theorem yield : Statement .yield := ofR rfl rfl
theorem gangbar : Statement .gangbar := ofR rfl rfl
theorem resolveAfterTret (key : Nat) : Statement (.resolveAfterTret key) := ofNone rfl
theorem stopSecondary (key : Nat) : Statement (.stopSecondary key) := ofNone rfl
theorem sleepWake (key : Nat) (slot : Bool) : Statement (.sleepWake key slot) := ofNone rfl
theorem engineSlotGrant (core : Nat) (gather : Bool) : Statement (.engineSlotGrant core gather) := ofNone rfl
theorem engineBytesDone (core op n : Nat) : Statement (.engineBytesDone core op n) := ofNone rfl
theorem engineOpComplete (core op : Nat) : Statement (.engineOpComplete core op) := ofNone rfl
theorem engineAccessFault (core op : Nat) : Statement (.engineAccessFault core op) := ofNone rfl
theorem engineOpFail (core op link : Nat) : Statement (.engineOpFail core op link) := ofNone rfl
theorem quadForm (blk quad : Nat) : Statement (.quadForm blk quad) := ofNone rfl
theorem regacqGrant (core : Nat) : Statement (.regacqGrant core) := ofNone rfl
theorem registerStall (core : Nat) : Statement (.registerStall core) := ofNone rfl
theorem coreWorkRequest (core : Nat) : Statement (.coreWorkRequest core) := ofNone rfl
theorem gangEnlistTimeout (part seq : Nat) : Statement (.gangEnlistTimeout part seq) := ofNone rfl
theorem displaceWaitingParent (part : Nat) : Statement (.displaceWaitingParent part) := ofNone rfl
theorem displaceHigherBlock (part seq : Nat) : Statement (.displaceHigherBlock part seq) := ofNone rfl
theorem blockRetire (blk : Nat) : Statement (.blockRetire blk) := ofNone rfl
theorem gridRetire (part seq : Nat) : Statement (.gridRetire part seq) := ofNone rfl
theorem tetherEntry (key : Nat) : Statement (.tetherEntry key) := ofNone rfl
theorem hostDoorbellStore (page off : Nat) (size : Nat) (value : BitVec 64) :
    Statement (.hostDoorbellStore page off size value) := ofNone rfl
theorem mooringEntryTake (core : Nat) : Statement (.mooringEntryTake core) := ofNone rfl
theorem hostReply (core : Nat) (tag : BitVec 32) (reply : BitVec 64) (body : List (BitVec 8)) :
    Statement (.hostReply core tag reply body) := ofNone rfl
theorem callGetid (core handle : Nat) : Statement (.callGetid core handle) := ofNone rfl
theorem callDmap (core handle : Nat) (base : BitVec 64) : Statement (.callDmap core handle base) := ofNone rfl
theorem callDunmap (core handle : Nat) : Statement (.callDunmap core handle) := ofNone rfl
theorem callSigmask (core handle : Nat) : Statement (.callSigmask core handle) := ofNone rfl
theorem callForwarded (core handle : Nat) : Statement (.callForwarded core handle) := ofNone rfl
theorem permissionCacheFill (core ctx : Nat) (va : BitVec 64) : Statement (.permissionCacheFill core ctx va) := ofNone rfl
theorem loadPerformed (tag : Nat) (data : List (BitVec 8)) (poison : Bool) (fault : Nat) :
    Statement (.loadPerformed tag data poison fault) := ofNone rfl
theorem l1Eviction (core asid : Nat) (va : BitVec 64) : Statement (.l1Eviction core asid va) := ofNone rfl
theorem postedWriteFail (tag : Nat) (reason : Nat) : Statement (.postedWriteFail tag reason) := ofNone rfl
theorem linkResponseTimeout (tag : Nat) : Statement (.linkResponseTimeout tag) := ofNone rfl
theorem hostSnoop (pa : Nat) (own : Bool) : Statement (.hostSnoop pa own) := ofNone rfl
theorem hostHdmAccess (pa : Nat) (size : Nat) (write : Bool) (data : List (BitVec 8)) (poison : Bool) :
    Statement (.hostHdmAccess pa size write data poison) := ofNone rfl
theorem ualinkInboundAccess (req : PeerReq) : Statement (.ualinkInboundAccess req) := ofNone rfl
theorem ualinkTetherRequest (srcChip : Nat) (tag : Nat) (sender : BitVec 32) (ctxid : Nat) (ep : Nat) (payload : BitVec 64) :
    Statement (.ualinkTetherRequest srcChip tag sender ctxid ep payload) := ofNone rfl
theorem ualinkPortFail (port : Nat) : Statement (.ualinkPortFail port) := ofNone rfl
theorem keptResponseExpire (srcChip ctx : Nat) : Statement (.keptResponseExpire srcChip ctx) := ofNone rfl
theorem translationMiss (key : Nat) (slot full : Bool) : Statement (.translationMiss key slot full) := ofNone rfl
theorem traceDrain (core : Nat) : Statement (.traceDrain core) := ofNone rfl
theorem coreUncorrectableError (core unit : Nat) : Statement (.coreUncorrectableError core unit) := ofNone rfl
theorem sqtailWrite (part : Nat) (tail : BitVec 32) (entries : List (List (BitVec 8))) :
    Statement (.sqtailWrite part tail entries) := ofNone rfl
theorem submitLaunch (part ctxid : Nat) (va : BitVec 64) : Statement (.submitLaunch part ctxid va) := ofNone rfl
theorem submitLoad (part ctxid : Nat) (addr size : BitVec 64) (places : List (BitVec 64)) :
    Statement (.submitLoad part ctxid addr size places) := ofNone rfl
theorem submitInval (part : Nat) (ctl start count : BitVec 64) : Statement (.submitInval part ctl start count) := ofNone rfl
theorem submitReclaim (part ctxid : Nat) (token : BitVec 64) : Statement (.submitReclaim part ctxid token) := ofNone rfl
theorem submitBinddb (part ctxid : Nat) (a0 a1 : BitVec 64) : Statement (.submitBinddb part ctxid a0 a1) := ofNone rfl
theorem submitWindow (part ctxid : Nat) (a0 a1 a2 : BitVec 64) : Statement (.submitWindow part ctxid a0 a1 a2) := ofNone rfl
theorem hostBlockWrite (part off : Nat) (value : BitVec 64) : Statement (.hostBlockWrite part off value) := ofNone rfl
theorem peerWindowWrite (win req off : Nat) (data : List (BitVec 8)) (poison : Bool) :
    Statement (.peerWindowWrite win req off data poison) := ofNone rfl
theorem peerWindowRead (win req off size : Nat) : Statement (.peerWindowRead win req off size) := ofNone rfl
theorem peerDoorbellWrite (off : Nat) (size : Nat) (value : BitVec 64) : Statement (.peerDoorbellWrite off size value) := ofNone rfl
theorem peerUnsupportedRequest (req : Nat) : Statement (.peerUnsupportedRequest req) := ofNone rfl
theorem hostPortDown : Statement .hostPortDown := ofNone rfl
theorem graceExpire (part : Nat) : Statement (.graceExpire part) := ofNone rfl
theorem coldReset (img : BootImages) : Statement (.coldReset img) := ofNone rfl
theorem watchdogExpire (part : Nat) : Statement (.watchdogExpire part) := ofNone rfl
theorem partitionResetRequest (part : Nat) : Statement (.partitionResetRequest part) := ofNone rfl
theorem debugStopArm (tick : BitVec 64) (part : Option Nat) : Statement (.debugStopArm tick part) := ofNone rfl
theorem debugStop (part : Option Nat) : Statement (.debugStop part) := ofNone rfl
theorem spdmCert : Statement .spdmCert := ofNone rfl
theorem spdmChal (nonce : List (BitVec 8)) : Statement (.spdmChal nonce) := ofNone rfl
theorem spdmMeas : Statement .spdmMeas := ofNone rfl
theorem extend (reg : Nat) (digest : BitVec 512) : Statement (.extend reg digest) := ofNone rfl
theorem lastEventsRead : Statement .lastEventsRead := ofNone rfl
theorem powerCap (watts : Nat) : Statement (.powerCap watts) := ofNone rfl
theorem governorTick (mhz : Nat) : Statement (.governorTick mhz) := ofNone rfl
theorem railCurrentThrottle (sect : Nat) (withhold : Bool) : Statement (.railCurrentThrottle sect withhold) := ofNone rfl
theorem thermalLimit (celsius : Nat) (mhz : Nat) : Statement (.thermalLimit celsius mhz) := ofNone rfl
theorem postedWriteAck (tag : Nat) : Statement (.postedWriteAck tag) := ofNone rfl
theorem tetherApertureResponse (tag : Nat) (status : Nat) : Statement (.tetherApertureResponse tag status) := ofNone rfl
theorem hostPortUp (cxl atomicOp : Bool) : Statement (.hostPortUp cxl atomicOp) := ofNone rfl
theorem ualinkPortRetrain (port : Nat) : Statement (.ualinkPortRetrain port) := ofNone rfl
theorem memoryPoisonFound (pa : Nat) : Statement (.memoryPoisonFound pa) := ofNone rfl
theorem permissionCacheEviction (core idx : Nat) : Statement (.permissionCacheEviction core idx) := ofNone rfl
theorem createContext (req : ContextReq) : Statement (.createContext req) := ofNone rfl

end Sys2Proof.Laws.Opcode
end

