-- ==== Sys2Proof/Laws/Step.lean ====
section
/-! SUPPORT. The laws of the step: what time passing changes, what the slots of a group hold, what a wait and a status change, and that the time never falls (R101). -/
namespace Sys2Proof.Machine

/-! ## Time -/

/-- All that time passing can do: under a debug stop nothing, else the tick and the counter of free values move on. -/
theorem elapse_cases (s : State) (round : Bool) :
    (s.debugStopped ≠ [] ∧ s.elapse round = s) ∨
      (s.debugStopped = [] ∧ s.elapse round = { s with tick := (s.elapse round).tick, freeCtr := s.freeCtr + 1 }) := by
  unfold State.elapse
  cases s.debugStopped with
  | nil => exact .inr ⟨rfl, rfl⟩
  | cons x t => exact .inl ⟨nofun, rfl⟩
@[simp] theorem elapse_mem (s : State) (round : Bool) : (s.elapse round).mem = s.mem := by unfold State.elapse; split <;> rfl
@[simp] theorem elapse_groups (s : State) (round : Bool) : (s.elapse round).groups = s.groups := by unfold State.elapse; split <;> rfl
@[simp] theorem elapse_cores (s : State) (round : Bool) : (s.elapse round).cores = s.cores := by unfold State.elapse; split <;> rfl
@[simp] theorem elapse_blocks (s : State) (round : Bool) : (s.elapse round).blocks = s.blocks := by unfold State.elapse; split <;> rfl
@[simp] theorem elapse_grids (s : State) (round : Bool) : (s.elapse round).grids = s.grids := by unfold State.elapse; split <;> rfl
@[simp] theorem elapse_agenda (s : State) (round : Bool) : (s.elapse round).agenda = s.agenda := by unfold State.elapse; split <;> rfl
/-- A later sample of the tick is not less. -/
theorem tick_le_elapse (s : State) (round : Bool) : s.tick.toNat ≤ (s.elapse round).tick.toNat := by
  have h := s.tick.isLt
  unfold State.elapse
  split
  · show _ ≤ (BitVec.ofNat 64 _).toNat
    rw [BitVec.toNat_ofNat, Nat.mod_eq_of_lt (by omega)]
    omega
  · exact Nat.le_refl _

/-! ## The slots of a group (R72, R146, R302) -/

@[simp] theorem pendOf_setPend (g : Group) (b : Bool) (p : Option Pend) : (g.setPend b p).pendOf b = p := by cases b <;> rfl
theorem pendOf_setPend_ne (g : Group) (b : Bool) (p : Option Pend) : (g.setPend b p).pendOf (!b) = g.pendOf (!b) := by cases b <;> rfl
@[simp] theorem pendOf_setRetry (g : Group) (a b : Bool) (r : Retry) : (g.setRetry a r).pendOf b = g.pendOf b := by cases a <;> rfl
@[simp] theorem retry_setRetry (g : Group) (b : Bool) (r : Retry) : (g.setRetry b r).retry b = r := by cases b <;> rfl
theorem retry_setRetry_ne (g : Group) (b : Bool) (r : Retry) : (g.setRetry b r).retry (!b) = g.retry (!b) := by cases b <;> rfl
@[simp] theorem retry_setPend (g : Group) (a b : Bool) (p : Option Pend) : (g.setPend a p).retry b = g.retry b := by cases a <;> cases b <;> rfl
@[simp] theorem mask_setMask (g : Group) (b : Bool) (m : Mask) : (g.setMask b m).mask b = m := by cases b <;> rfl
@[simp] theorem mask_setRetry (g : Group) (a b : Bool) (r : Retry) : (g.setRetry a r).mask b = g.mask b := by cases a <;> cases b <;> rfl
@[simp] theorem mask_setPend (g : Group) (a b : Bool) (p : Option Pend) : (g.setPend a p).mask b = g.mask b := by cases a <;> cases b <;> rfl
@[simp] theorem pc_setRetry (g : Group) (a b : Bool) (r : Retry) : (g.setRetry a r).pc b = g.pc b := by cases a <;> cases b <;> rfl
@[simp] theorem pc_setPend (g : Group) (a b : Bool) (p : Option Pend) : (g.setPend a p).pc b = g.pc b := by cases a <;> cases b <;> rfl
/-- The commit of a slot's word ends its retry and the access that it waited for. -/
@[simp] theorem retry_advance (g : Group) (b : Bool) : (g.advance b).retry b = Retry.none := by cases b <;> rfl
@[simp] theorem pendOf_advance (g : Group) (b : Bool) : (g.advance b).pendOf b = none := by cases b <;> rfl
theorem retry_advance_ne (g : Group) (b : Bool) : (g.advance b).retry (!b) = g.retry (!b) := by cases b <;> rfl
theorem pendOf_advance_ne (g : Group) (b : Bool) : (g.advance b).pendOf (!b) = g.pendOf (!b) := by cases b <;> rfl

/-! ## Waits, statuses, windows -/

@[simp] theorem waitAt_mem (s : State) (w : Wait) : (s.waitAt w).mem = s.mem := rfl
@[simp] theorem waitAt_cores (s : State) (w : Wait) : (s.waitAt w).cores = s.cores := rfl
@[simp] theorem waitAt_blocks (s : State) (w : Wait) : (s.waitAt w).blocks = s.blocks := rfl
@[simp] theorem waitAt_cur (s : State) (w : Wait) : (s.waitAt w).cur = s.cur := rfl
@[simp] theorem status_mem (s : State) (d st : Nat) : (s.status d st).mem = s.mem := rfl
@[simp] theorem status_cores (s : State) (d st : Nat) : (s.status d st).cores = s.cores := rfl
@[simp] theorem status_blocks (s : State) (d st : Nat) : (s.status d st).blocks = s.blocks := rfl
@[simp] theorem status_cur (s : State) (d st : Nat) : (s.status d st).cur = s.cur := rfl
@[simp] theorem setTb_mem (s : State) (b n : Nat) (t : Tb) : (s.setTb b n t).mem = s.mem := rfl
@[simp] theorem setTb_groups (s : State) (b n : Nat) (t : Tb) : (s.setTb b n t).groups = s.groups := rfl
@[simp] theorem setTb_cores (s : State) (b n : Nat) (t : Tb) : (s.setTb b n t).cores = s.cores := rfl
@[simp] theorem modWindow_mem (s : State) (n : Nat) (f : Window → Window) : (s.modWindow n f).mem = s.mem := rfl
@[simp] theorem modWindow_groups (s : State) (n : Nat) (f : Window → Window) : (s.modWindow n f).groups = s.groups := rfl
@[simp] theorem window_modWindow_self (s : State) (n : Nat) (f : Window → Window) : (s.modWindow n f).window n = f (s.window n) := by
  show aval _ n (aput n _ s.windows) = _
  unfold aval
  rw [aget?_aput_self]
  rfl
theorem window_modWindow_ne (s : State) {n k : Nat} (h : k ≠ n) (f : Window → Window) : (s.modWindow n f).window k = s.window k := by
  show aval _ k (aput n _ s.windows) = aval _ k s.windows
  unfold aval
  rw [aget?_aput_ne h]

end Sys2Proof.Machine
end

