-- ==== Sys2Proof/Tests/Slice0.lean ====
section
/-! SUPPORT. Tests: ill-formed terms that WellFormed refuses, words written out from the encodings of the spec and the instructions they
decode to, single steps with values calculated by hand from the rules, and for every obligation with hypotheses states and operands that
meet them. -/
namespace Sys2Proof.Tests
open Sys2Proof Sys2Proof.Machine Sys2Proof.Claims
-- one declaration after another, so that few threads are at work at a time
set_option Elab.async false

/-! ## Small states -/

/-- An R-form word without guard, D = 4, A = 2, B = 6, C = 0, all lane registers. -/
def rr : RWord :=
  { pg := 7, pn := false, d := 4, a := 2, b := 6, c := 0, ua := false, ub := false, uc := false, na := false, aa := false, nb := false,
    ab := false, nc := false, ac := false, xop := 0 }
/-- An I-form word, D = 4, A = 2, immediate 5. -/
def qq : IWord := { pg := 7, pn := false, d := 4, a := 2, im := 0, imm := 5 }
/-- An M-form word of 4 bytes a lane, D = 4, A = 2, B = 6. -/
def mm : MWord := { pg := 7, pn := false, d := 4, a := 2, b := 6, sc := 0, ord := 0, sz := 2, cp := 0, au := false, off := 0 }
/-- A B-form word whose target is 16 words on. -/
def bb : BWord := { pg := 7, pn := false, tgt := 16, bop := 0 }
/-- Every lane. -/
def tm : Mask := 0xFFFFFFFF
/-- A user group of 32 lanes with an allotment of 128 registers: v2 holds 7, v6 holds 3 in lane 0. -/
def tg : Group := { Group.fresh 0 (some 0) 0 0 128 tm 0x100000 with v := [(64, 7), (192, 3)] }
/-- A small device: core 0, block 0 of the placed grid, and the group g with key 256. -/
def ts (g : Group) : State :=
  { State.reset with groups := [(256, g)], blocks := [(0, placedBlock)], grids := [(gridKey 0 1, placedGrid)],
                     cur := { key := 256, slot1 := false } }
/-- A supervisor group. -/
def sg : Group := { Group.fresh 0 none 0 0 64 1 0x1000 with s := [] }
/-- A small device whose supervisor group of core 0 issues. -/
def ss (g : Group) : State := { State.reset with groups := [(0, g)], cur := { key := 0, slot1 := false } }

/-- A word issues in the small device where its checks pass and the group is not divided. -/
theorem issuesU {i : Instr} {g : Group} {m : Mask} (hd : g.divided = false) (h : decodeChecks i g false [] [] = none)
    (hm : m = g.active false (guardOf i).1 (guardOf i).2) : Issues i (ts g) g m :=
  ⟨rfl, fun e => (nomatch e), fun _ => .inr (.inl hd), h, hm⟩
theorem issuesS {i : Instr} {g : Group} {m : Mask} (hd : g.divided = false) (h : decodeChecks i g false [] [] = none)
    (hm : m = g.active false (guardOf i).1 (guardOf i).2) : Issues i (ss g) g m :=
  ⟨rfl, fun e => (nomatch e), fun _ => .inr (.inl hd), h, hm⟩
/-- The checks of a word, and its ACTIVE. -/
def okWord (g : Group) (m : Mask) (i : Instr) : Bool := (decodeChecks i g false [] []).isNone && m == g.active false (guardOf i).1 (guardOf i).2
theorem issues_of_ok {i : Instr} {g : Group} {m : Mask} (hd : g.divided = false) (h : okWord g m i = true) : Issues i (ts g) g m := by
  simp only [okWord, Bool.and_eq_true, Option.isNone_iff_eq_none, beq_iff_eq] at h
  exact issuesU hd h.1 h.2
theorem issuesS_of_ok {i : Instr} {g : Group} {m : Mask} (hd : g.divided = false) (h : okWord g m i = true) : Issues i (ss g) g m := by
  simp only [okWord, Bool.and_eq_true, Option.isNone_iff_eq_none, beq_iff_eq] at h
  exact issuesS hd h.1 h.2
theorem issuesU_all {l : List Instr} {g : Group} {m : Mask} (hd : g.divided = false) (h : l.all (okWord g m) = true) :
    ∀ i ∈ l, Issues i (ts g) g m := fun _ hi => issues_of_ok hd (List.all_eq_true.1 h _ hi)
theorem issuesS_all {l : List Instr} {g : Group} {m : Mask} (hd : g.divided = false) (h : l.all (okWord g m) = true) :
    ∀ i ∈ l, Issues i (ss g) g m := fun _ hi => issuesS_of_ok hd (List.all_eq_true.1 h _ hi)
theorem quiet_of_masked {g : Group} {ud : Bool} {m : Mask} {f : Nat → Flags} (h : g.fpmode = 0) : Quiet g ud m f := by
  unfold Quiet
  rw [h]
  split
  · simp
  · intros; simp

/-- A check that finds nothing. -/
def isOk {α : Type} (x : Res α) : Bool := match x with
  | .ok _ => true
  | .error _ => false
theorem ok_of {x : Res Unit} (h : isOk x = true) : x = .ok () := by
  cases x with
  | ok u => rfl
  | error e => cases h

/-! ## Witnesses for the register words -/

theorem witness_ArithmeticWords : ∀ e ∈ arithTable tg tm rr qq, Issues e.i (ts tg) tg tm ∧ e.ok := by
  intro e he
  simp only [arithTable, List.mem_cons, List.not_mem_nil, or_false] at he
  rcases he with rfl | rfl | rfl | rfl | rfl | rfl | rfl | rfl | rfl | rfl | rfl | rfl | rfl | rfl | rfl | rfl
  all_goals refine ⟨issues_of_ok rfl (by decide +kernel), ?_⟩
  all_goals first
    | trivial
    | exact .inl rfl
theorem witness_LogicWords : ∀ e ∈ logicTable tg tm rr qq, Issues e.i (ts tg) tg tm ∧ e.ok := by
  intro e he
  simp only [logicTable, List.mem_cons, List.not_mem_nil, or_false] at he
  rcases he with rfl | rfl | rfl | rfl | rfl | rfl | rfl | rfl | rfl | rfl | rfl | rfl | rfl | rfl | rfl | rfl | rfl | rfl | rfl | rfl
  all_goals refine ⟨issues_of_ok rfl (by decide +kernel), ?_⟩
  all_goals first
    | trivial
    | exact (ok_of (by decide +kernel) : tg.consume 3 tm [(2, 1, false), (6, 1, false)] = .ok ())
theorem witness_MoveWords : ∀ e ∈ moveTable tg tm rr qq, Issues e.i (ts tg) tg tm ∧ e.ok := by
  intro e he
  simp only [moveTable, List.mem_cons, List.not_mem_nil, or_false] at he
  rcases he with rfl | rfl | rfl | rfl | rfl | rfl | rfl | rfl | rfl | rfl
  all_goals refine ⟨issues_of_ok rfl (by decide +kernel), ?_⟩
  all_goals first
    | trivial
    | exact (ok_of (by decide +kernel) : tg.consume 3 tm [(2, 2, false), (6, 2, false)] = .ok ())
    | exact ⟨(ok_of (by decide +kernel) : tg.consume 1 tm [(6, 1, false)] = .ok ()), (by decide +kernel :
        ∀ l, l < 32 → tm.getLsbD l = true → 0 ≤ indexOf tg 2 rr l ∧ indexOf tg 2 rr l < tg.allot)⟩
theorem witness_ExchangeWords : ∀ e ∈ exchangeTable tg tm tm rr, Issues e.i (ts tg) tg tm ∧ e.ok := by
  intro e he
  simp only [exchangeTable, List.mem_cons, List.not_mem_nil, or_false] at he
  rcases he with rfl | rfl | rfl | rfl | rfl | rfl | rfl
  all_goals refine ⟨issues_of_ok rfl (by decide +kernel), ?_⟩
  all_goals first
    | trivial
    | exact (ok_of (by decide +kernel) : tg.consume 2 tm [(6, 1, false)] = .ok ())
theorem fRow_ok {i g m r wide p res} (h : g.fpmode = 0) : (fRow i g m r wide p res).ok := quiet_of_masked h
theorem fRowI_ok {i g m q op} (h : g.fpmode = 0) : (fRowI i g m q op).ok := by
  intro l _ _
  show _ &&& g.fpmode.truncate 5 = 0
  rw [h]
  simp
theorem witness_FloatWords : ∀ e ∈ floatTable tg tm rr qq, Issues e.i (ts tg) tg tm ∧ e.ok := by
  intro e he
  simp only [floatTable, List.mem_cons, List.not_mem_nil, or_false] at he
  rcases he with rfl | rfl | rfl | rfl | rfl | rfl | rfl | rfl | rfl | rfl | rfl | rfl | rfl | rfl | rfl | rfl | rfl | rfl | rfl
  all_goals refine ⟨issues_of_ok rfl (by decide +kernel), ?_⟩
  all_goals first
    | exact fRow_ok rfl
    | exact fRowI_ok rfl
    | exact quiet_of_masked (g := tg) rfl
    | (intro l _ _; show _ &&& tg.fpmode.truncate 5 = 0; simp [tg, Group.fresh])
    | exact ⟨(ok_of (by decide +kernel) : tg.consume 3 tm [(2, 1, false), (6, 1, false)] = .ok ()), quiet_of_masked (g := tg) rfl⟩
theorem witness_WideAndNarrowFloatWords :
    ∀ e ∈ doubleTable tg tm rr ++ packTable tg tm rr ++ convertTable tg tm rr, Issues e.i (ts tg) tg tm ∧ e.ok := by
  intro e he
  simp only [doubleTable, packTable, packRows, convertTable, List.cons_append, List.nil_append, List.mem_cons, List.not_mem_nil,
    or_false] at he
  rcases he with rfl | rfl | rfl | rfl | rfl | rfl | rfl | rfl | rfl | rfl | rfl | rfl | rfl | rfl | rfl | rfl | rfl | rfl | rfl | rfl | rfl | rfl
  all_goals refine ⟨issues_of_ok rfl (by decide +kernel), ?_⟩
  all_goals first
    | exact fRow_ok rfl
    | exact fRowI_ok rfl
    | exact quiet_of_masked (g := tg) rfl
    | (intro l _ _; show _ &&& tg.fpmode.truncate 5 = 0; simp [tg, Group.fresh])
    | exact ⟨(ok_of (by decide +kernel) : tg.consume 3 tm [(2, 2, false), (6, 2, false)] = .ok ()), quiet_of_masked (g := tg) rfl⟩
/-- FSETM and CLRF under a guard that no lane passes. -/
theorem witness_SpecialWords_none : ∀ i ∈ [Instr.fsetm { rr with pg := 0 }, .clrf { rr with pg := 0 }], Issues i (ts tg) tg 0 :=
  issuesU_all rfl (by decide +kernel)
/-- The words of the second half of ExchangeAndSpecialWords, with the lane index of MOVWX in the allotment at both ends of its range. -/
theorem witness_SpecialWords :
    Issues (.movs rr) (ts tg) tg tm ∧ tm ≠ 0 ∧ Issues (.movwx rr) (ts tg) tg tm ∧ tg.consume 1 tm [(rr.b.toNat, 1, rr.ub)] = .ok () ∧
      (∀ l, l < 32 → tm.getLsbD l = true → 0 ≤ indexOf tg rr.d.toNat rr l ∧ indexOf tg rr.d.toNat rr l < tg.allot) ∧
      Issues (.v2p rr) (ts tg) tg tm ∧ tg.consume 3 tm [(rr.a.toNat, 1, rr.ua)] = .ok () ∧
      Issues (.fsetm rr) (ts tg) tg tm ∧ tg.consumeU 8 tm [rr.a.toNat, rr.c.toNat] = .ok () ∧
      Issues (.clrf rr) (ts tg) tg tm ∧ tg.consumeU 8 tm [rr.a.toNat] = .ok () :=
  ⟨issues_of_ok rfl (by decide +kernel), by decide, issues_of_ok rfl (by decide +kernel), ok_of (by decide +kernel),
    by decide +kernel, issues_of_ok rfl (by decide +kernel), ok_of (by decide +kernel), issues_of_ok rfl (by decide +kernel),
    ok_of (by decide +kernel), issues_of_ok rfl (by decide +kernel), ok_of (by decide +kernel)⟩
theorem witness_MOVWX_last_register : indexOf { tg with v := [(192, 123)] } 4 rr 0 = 127 ∧ (127 : Int) < tg.allot := by decide +kernel
/-- MOV v4, v2 | IADD v5, v3, 7. -/
def pp : PairWord := { h0 := { op := .mov, d := 4, a := 2, m9 := 0x105 }, h1 := { op := .iadd, d := 5, a := 3, m9 := 0x107 } }
theorem witness_PairWords : Issues (.pairWord pp) (ts tg) tg tm ∧
    ∀ l, l < 32 → tm.getLsbD l = true → ((halfResult tg pp.h0 l).2 ||| (halfResult tg pp.h1 l).2) &&& tg.fpmode.truncate 5 = 0 :=
  ⟨issues_of_ok rfl (by decide +kernel), fun l _ _ => by show _ &&& (0 : Flags) = 0; simp⟩

/-! ## Witnesses for decoding, the step and traps -/

/-- A well-formed IADD. -/
def ra : RWord := { rr with xop := 0x080 }
theorem witness_DecodeOfEncode : WellFormed (.iadd ra) ∧ encode (.iadd ra) = some (wordOf (.iadd ra)) ∧ (opcodeOf (.iadd ra)).isSome = true := by
  decide +kernel
/-- The device on which NOP, whose word R88 gives, is the next to issue. -/
def nopWord : Nat := 0x0038000000000000
def ns : State := State.reset.withFetchWord 64 nopWord
/-- A fetch that brings a word. -/
def fetchedWord (s : State) (g : Group) (w : DWord) : Bool := match s.fetch g false with
  | .word _ x => x == w
  | _ => false
/-- A fetch that traps. -/
def fetchTraps (s : State) (g : Group) : Bool := match s.fetch g false with
  | .trap _ _ => true
  | _ => false
/-- The device as its quarter has chosen group 256. -/
def chosen (s : State) : State :=
  issuing (rotated (atChoice { s with agenda := [] } 0 0) 0 0 true) 0 256 false
/-- What StepRunsDecoded asks of a cycle before the fetch. -/
def chooses (s : State) (g : Group) : Prop :=
  s.stopDue = none ∧ s.agenda = [.cycle 0 0] ∧ MayChoose { s with agenda := [] } 0 ∧
    (atChoice { s with agenda := [] } 0 0).pick 0 0 = (.issue 256 false, true) ∧ (chosen s).group? 256 = some g ∧ g.mask0 ≠ 0
theorem witness_StepRunsDecoded : chooses ns placedGroup ∧ fetchedWord (chosen ns) placedGroup (BitVec.ofNat 64 nopWord) = true ∧
    (chosen ns).breakAt ((chosen ns).whoGroup placedGroup) (placedGroup.skipBreak false) placedGroup.pc0 = none := by
  unfold chooses MayChoose
  decide +kernel
/-- The same with slot 0 at a misaligned PC. -/
def badPc : Group := { placedGroup with pc0 := 0x100001 }
theorem witness_StepRunsDecoded_fetch_trap : chooses { ns with groups := aput 256 badPc ns.groups } badPc ∧
    fetchTraps (chosen { ns with groups := aput 256 badPc ns.groups }) badPc = true := by
  unfold chooses MayChoose
  decide +kernel
/-- The same with the code in host memory. -/
def fetchMisses (s : State) (g : Group) : Bool := match s.fetch g false with
  | .miss _ _ => true
  | _ => false
def missS : State := ns.putWords [(placedRoot + 8192, gigLeaf hostBase true)]
theorem witness_StepRunsDecoded_miss : chooses missS placedGroup ∧ fetchMisses (chosen missS) placedGroup = true := by
  unfold chooses MayChoose
  decide +kernel
/-- The same with a breakpoint of ASID 1 at the word. -/
def bs : State := { ns with breakpoints := [(4, { pc := 0x100000, ctl := 1 })] }
theorem witness_StepRunsDecoded_break : chooses bs placedGroup ∧ fetchedWord (chosen bs) placedGroup (BitVec.ofNat 64 nopWord) = true ∧
    ((chosen bs).breakAt ((chosen bs).whoGroup placedGroup) (placedGroup.skipBreak false) placedGroup.pc0).isSome = true := by
  unfold chooses MayChoose
  decide +kernel
/-- An agenda that is empty with nothing due, and one whose head is an event that nothing holds. -/
theorem witness_StepRunsDecoded_turn : State.reset.stopDue = none ∧ ns.stopDue = none ∧ State.reset.agenda = [] ∧
    State.reset.due = none ∧ State.reset.turn = 4 * 0 + 0 ∧ ns.barred .lastEventsRead = false ∧
    ({ ns with agenda := [.event .lastEventsRead] } : State).agenda = [.event .lastEventsRead] := by
  decide +kernel
/-- A step that answers a next state. -/
def answers {α β γ : Type} (o : Host.Outcome α β γ) : Bool := match o with
  | .next _ => true
  | _ => false
theorem answers_next {α β γ : Type} {o : Host.Outcome α β γ} (h : answers o = true) : ∃ t, o = .next t := by
  cases o with
  | next t => exact ⟨t, rfl⟩
  | fault f => cases h
  | refused r => cases h
theorem witness_StepKeepsMemoryForm : Memory.wf ns.mem ∧ ∃ t, step ns = .next t :=
  ⟨by decide +kernel, answers_next (by decide +kernel)⟩
theorem witness_PrivilegeTrap : (ts tg).group? (ts tg).cur.key = some tg ∧ tg.isSup = false ∧ (encode (.halt rr)).isSome = true ∧
    (wordOf (.halt rr)).getLsbD 63 = false ∧ privileged (opField (wordOf (.halt rr))) = true ∧ (ts tg).cur.slot1 = false := by
  decide +kernel
theorem witness_PrivilegeTrap_other : privileged (opField (wordOf (.iadd { rr with a := 255 }))) = false ∧
    (decodeChecks (.iadd { rr with a := 255 }) tg false [] []).isSome = true := by
  decide +kernel
/-- The core of the small device, and with a handler's address. -/
def k0 : Core := (State.reset.core 0)
def k1 : Core := { k0 with svec := 0x2000 }
theorem witness_SupervisorTrap : sg.isSup = true ∧ aget? sg.core (ss sg).cores = some k0 ∧ k0.svec = 0 ∧
    aget? sg.core ({ ss sg with cores := aput 0 k1 (ss sg).cores } : State).cores = some k1 ∧ k1.nest = false ∧ k1.svec ≠ 0 := by
  decide +kernel
theorem witness_UserTrapParks : tg.isSup = false ∧ aget? tg.core (ts tg).cores = some k0 ∧ k0.mq.length < 128 := by decide +kernel
/-- OperandTraps: REGBOUND at the register after the allotment and at the highest. -/
theorem witness_OperandTraps_bound : (ts tg).group? (ts tg).cur.key = some tg ∧ (ts tg).cur.slot1 = false ∧ tg.inEntry = false ∧
    rr.ua = false ∧ rr.ub = false ∧ xbit rr 0 = false ∧ tg.isSup = false ∧
    tg.allot ≤ max (({ rr with a := 128 } : RWord).d.toNat) (max (({ rr with a := 128 } : RWord).a.toNat) rr.b.toNat) ∧
    tg.allot ≤ max (({ rr with d := 255 } : RWord).d.toNat) (max rr.a.toNat rr.b.toNat) := by
  decide +kernel
/-- The group under traps on division by zero and on every flag, and with v2 poisoned in lane 0. -/
def dg : Group := { tg with arithmode := 2, fpmode := 31, v := [(64, 0x7F7FFFFF), (96, 0x7F7FFFFF), (192, 0x7F7FFFFF)] }
def xg : Group := { tg with vPoison := [(2, 1)] }
theorem witness_OperandTraps_division : Issues (.idiv rr) (ts dg) dg tm ∧ dg.arithmode.getLsbD 1 = true ∧ xbit rr 0 = false ∧
    maskOf (fun l => tm.getLsbD l && opB dg rr l == 0) ≠ 0 :=
  ⟨issues_of_ok rfl (by decide +kernel), by decide, by decide, by decide +kernel⟩
theorem witness_OperandTraps_flag : Issues (.fadd rr) (ts dg) dg tm ∧ fpUd rr = false ∧
    maskOf (fun l => tm.getLsbD l &&
      ((fpFinish f32 rr (exAdd (rmOf rr) (f32.dec (encA f32 dg rr l)) (f32.dec (encB f32 dg rr l)))).2 &&& dg.fpmode.truncate 5) != 0) ≠ 0 :=
  ⟨issues_of_ok rfl (by decide +kernel), by decide, by decide +kernel⟩
theorem witness_OperandTraps_poison : Issues (.icmp rr) (ts xg) xg tm ∧
    (xg.srcPoison rr.a.toNat 1 rr.ua ||| xg.srcPoison rr.b.toNat 1 rr.ub) &&& tm ≠ 0 :=
  ⟨issues_of_ok rfl (by decide +kernel), by decide +kernel⟩
theorem witness_OperandTraps_align : Issues (.ld mm) (ts tg) tg tm ∧ mm.sz.toNat ≤ 5 ∧ tg.consume 4 tm [(mm.a.toNat, 2, mm.au)] = .ok () ∧
    mm.au = false ∧ maskOf (fun l => tm.getLsbD l && decide ((genAddr tg mm l).toNat % accSize mm ≠ 0)) ≠ 0 :=
  ⟨issues_of_ok rfl (by decide +kernel), by decide, ok_of (by decide +kernel), rfl, by decide +kernel⟩
/-- Narrowing at the least width and at 64. -/
theorem witness_Narrowing : (0 < 1) ∧ (0 < 64) := by decide

/-! ## Witnesses for control flow -/

/-- A branch with condition c on register or predicate r. -/
def bra (c r : Nat) : BWord := { bb with bop := BitVec.ofNat 26 (2 ^ 23 * c + 2 ^ 15 * r) }
theorem witness_UniformWords :
    (∀ i ∈ ((List.range 6).map (fun c => Instr.bra (bra c 3))) ++
      [.brx rr, .ret rr, .callx rr, .call bb, .yield, .sleep { qq with imm := 0 }, .sleep qq], Issues i (ts tg) tg tm) ∧
    (∀ c, c < 6 → tg.poisonS (brBits (bra c 3) 15 8) = false) ∧
    tg.poisonS rr.a.toNat = false ∧ tg.poisonS (rr.a.toNat + 1) = false ∧ (tg.getS64 rr.a.toNat).toNat % 8 = 0 :=
  ⟨issuesU_all rfl (by decide +kernel), by decide +kernel, by decide +kernel, by decide +kernel, by decide +kernel⟩
/-- Groups whose p0 holds no lane, some lanes, every lane; one with slot 1 in use. -/
def pg (p : Mask) : Group := { tg with p := [(0, p)] }
def pr : Group := { pg 1 with run1 := true, mask1 := 0 }
/-- IF on p0 in each case: divided, one side empty, the other side empty, slot 1 in use. -/
theorem witness_IfWords_if : (Issues (.ifThen bb) (ts (pg 1)) (pg 1) tm ∧ brCond bb (pg 1) ≠ 0 ∧ (pg 1).mask0 &&& ~~~(brCond bb (pg 1)) ≠ 0 ∧
      (pg 1).run1 = false) ∧
    (Issues (.ifThen bb) (ts (pg tm)) (pg tm) tm ∧ brCond bb (pg tm) ≠ 0 ∧ (pg tm).mask0 &&& ~~~(brCond bb (pg tm)) = 0) ∧
    (Issues (.ifThen bb) (ts (pg 0)) (pg 0) tm ∧ brCond bb (pg 0) = 0) ∧ tg.depth < 64 ∧ tg.stack.length < 8 :=
  ⟨⟨issues_of_ok rfl (by decide +kernel), by decide +kernel, by decide +kernel, rfl⟩,
    ⟨issues_of_ok rfl (by decide +kernel), by decide +kernel, by decide +kernel⟩,
    ⟨issues_of_ok rfl (by decide +kernel), by decide +kernel⟩, by decide, by decide⟩
/-- An IF entry at the top, whose ENDIF stands at x, with pm pending. -/
def ie (x : DWord) (pm : Mask) : StackEntry := { rm := tm, pm, pc := 0x100100, epc := x, kf := 1 }
def ig (x : DWord) (pm : Mask) : Group := { tg with mask0 := 1, stack := [ie x pm], depth := 1 }
theorem witness_IfWords_else : ∀ pm ∈ [(2 : Mask), 0],
    Issues (.elseW bb) (ts (ig (brTarget bb 0x100000) pm)) (ig (brTarget bb 0x100000) pm) 1 ∧
    Issues .endif (ts (ig 0x100000 pm)) (ig 0x100000 pm) 1 ∧ 0 < (ig 0 pm).depth ∧ (ig 0 pm).belowEntry 0 = false ∧ (ie 0 pm).kind = 1 ∧
    (ie 0 pm).split = false ∧ (ig 0 pm).spill = 0 ∧ (ie 0 pm).rm &&& (ig 0 pm).live ≠ 0 := by
  intro pm hp
  simp only [List.mem_cons, List.not_mem_nil, or_false] at hp
  rcases hp with rfl | rfl <;> exact ⟨issues_of_ok rfl (by decide +kernel), issues_of_ok rfl (by decide +kernel), by decide +kernel⟩
/-- A loop whose head is 16 words on, with its ENDLOOP here; and a loop that ends 16 words on, below an IF. -/
def le : StackEntry := { rm := tm, pm := 0, pc := 0x100080, epc := 0x100000, kf := 2 }
def le2 : StackEntry := { rm := tm, pm := 0, pc := 0x100008, epc := 0x100080, kf := 2 }
def lg : Group := { tg with mask0 := 1, stack := [le], depth := 1 }
def kg : Group := { tg with p := [(0, 1)], stack := [ie 0 0, le2], depth := 2 }
theorem witness_LoopWords :
    (Issues (.loopW bb) (ts tg) tg tm ∧ tg.depth < 64 ∧ tg.stack.length < 8) ∧
    (Issues (.endloop bb) (ts lg) lg 1 ∧ lg.stack = [le] ∧ 0 < lg.depth ∧ lg.belowEntry 0 = false ∧ le.kind = 2 ∧ le.epc = lg.pc0 ∧
      le.pc = brTarget bb lg.pc0) ∧
    (Issues (.breakW bb) (ts kg) kg tm ∧ Issues (.cont bb) (ts kg) kg tm ∧ kg.stack = [ie 0 0] ++ le2 :: [] ∧ [ie 0 0].length < kg.depth ∧
      kg.inEntry = false ∧ (∀ e ∈ [ie 0 0], e.kind = 1) ∧ le2.kind = 2 ∧ le2.epc = brTarget bb kg.pc0 ∧ kg.mask0 &&& ~~~(brCond bb kg) ≠ 0) :=
  ⟨⟨issues_of_ok rfl (by decide +kernel), by decide, by decide⟩, ⟨issues_of_ok rfl (by decide +kernel), by decide +kernel⟩,
    ⟨issues_of_ok rfl (by decide +kernel), issues_of_ok rfl (by decide +kernel), by decide +kernel⟩⟩
/-- EXIT of every lane, of one lane of two slots' many, and of slot 0's last lane with a side pending. -/
def er : RWord := { rr with pg := 0 }
def eg : Group := { ig 0 2 with p := [(0, 1)] }
theorem witness_ExitWord : (Issues (.exit rr) (ts tg) tg tm ∧ tg.live &&& ~~~tm = 0) ∧
    (Issues (.exit er) (ts (pg 1)) (pg 1) 1 ∧ (pg 1).live &&& ~~~(1 : Mask) ≠ 0 ∧ (pg 1).mask false &&& ~~~(1 : Mask) ≠ 0) ∧
    (Issues (.exit er) (ts eg) eg 1 ∧ eg.live &&& ~~~(1 : Mask) ≠ 0 ∧ eg.mask0 &&& ~~~(1 : Mask) = 0 ∧ eg.stack = [ie 0 2] ∧
      0 < eg.depth ∧ eg.belowEntry 0 = false ∧ (ie 0 2).split = false ∧ (ie 0 2).pm ≠ 0 ∧ (ie 0 2).kind = 1) :=
  ⟨⟨issues_of_ok rfl (by decide +kernel), by decide⟩, ⟨issues_of_ok rfl (by decide +kernel), by decide, by decide⟩,
    ⟨issues_of_ok rfl (by decide +kernel), by decide +kernel⟩⟩

/-! ## Witnesses for memory words -/

/-- One lane whose base is 0x200000, in the placed context, which maps the lowest GiB to itself. -/
def mg : Group := { placedGroup with mask0 := 1, live := 1, v := [(64, 0x200000), (192, 3)] }
def ps (g : Group) : State := { ns with groups := [(256, g)], cur := { key := 256, slot1 := false } }
/-- Outstanding requests of each kind. -/
def rq (kind : ReqKind) : Request :=
  { kind, core := 0, ctxid := 1, key := 256, target := .host 0x8000040000000 true, port := none, addr := 0x40000000, issued := 0, op := none,
    l1 := none, ro := none, llc := none, own := false, acts := [] }
/-- The entry of that GiB. -/
def ent (c : Bool) : PermEntry :=
  { ctxid := 1, asid := 1, glob := false, va := 0, bits := 30, pa := 0, w := true, x := true, u := true, sec := false, c, h := false,
    ra := false, stripe := none }
theorem issuesP {l : List Instr} {g : Group} {m : Mask} (hd : g.divided = false) (h : l.all (okWord g m) = true) :
    ∀ i ∈ l, Issues i (ps g) g m := by
  intro i hi
  have h1 := List.all_eq_true.1 h _ hi
  simp only [okWord, Bool.and_eq_true, Option.isNone_iff_eq_none, beq_iff_eq] at h1
  exact ⟨rfl, fun e => (nomatch e), fun _ => .inr (.inl hd), h1.1, h1.2⟩
/-- A check that reaches device memory. -/
def reachesDev (x : Except Nat (PermEntry × Target)) (e : PermEntry) (pa : Nat) : Bool := match x with
  | .ok (e', .dev p) => e' == e && p == pa
  | _ => false
theorem reaches_one {s : State} {w : Who} {acc : Access} {ok : Bool} {addr : Nat → DWord} {n pa : Nat} {e : PermEntry}
    (h : reachesDev (s.checkByte w acc (addr 0) ok) e pa = true) (al : (addr 0).toNat % n = 0) (lo : pa % 64 = va57 (addr 0) % 64) :
    Reaches s w acc ok 1 addr n (fun _ => e) (fun _ => pa) := by
  have one (l : Nat) (h : (1 : Mask).getLsbD l = true) : l = 0 := by simp at h; exact h
  intro l _ hm
  cases one l hm
  refine ⟨?_, al, lo, fun k _ hk => by cases one k hk; exact ⟨fun _ => rfl, fun _ => rfl⟩⟩
  revert h
  unfold reachesDev
  split
  · intro h
    rename_i heq
    rw [heq]
    simp only [Bool.and_eq_true, beq_iff_eq] at h
    rw [h.1, h.2]
  · intro h; cases h
theorem calm_ps : Calm (ps mg) mg := by
  refine ⟨by unfold EmptyCaches; decide +kernel, ⟨?_, ?_, ?_, ?_, ⟨(ps mg).core 0, ?_⟩⟩, ?_, by unfold NoStash; decide +kernel,
    by unfold AwaitsNone; decide +kernel⟩ <;> decide +kernel
theorem witness_GenericLoads : Calm (ps mg) mg ∧ mm.sz.toNat ≤ 5 ∧ mg.consume 4 1 [(mm.a.toNat, 2, mm.au)] = .ok () ∧
    Reaches (ps mg) ((ps mg).whoGroup mg) .read true 1 (genAddr mg mm) (accSize mm) (fun _ => ent true) (fun _ => 0x200000) ∧
    ∀ i ∈ [Instr.ld mm, .ldro mm], Issues i (ps mg) mg 1 :=
  ⟨calm_ps, by decide, ok_of (by decide +kernel), reaches_one (by decide +kernel) (by decide +kernel) (by decide +kernel),
    issuesP rfl (by decide +kernel)⟩
/-- A store under CP = 3, and a release of device scope. -/
def mt : MWord := { mm with cp := 3 }
def mq : MWord := { mm with ord := 2, sc := 2 }
theorem witness_GenericStores :
    Calm (ps mg) mg ∧ mm.sz.toNat ≤ 5 ∧ mg.consume 4 1 [(mm.a.toNat, 2, mm.au)] = .ok () ∧
    (∀ r ∈ [mm, mt, mq],
      Reaches (ps mg) ((ps mg).whoGroup mg) .write true 1 (genAddr mg r) (accSize r) (fun _ => ent true) (fun _ => 0x200000)) ∧
    (∀ i ∈ [Instr.st mm, .st mt, .st mq], Issues i (ps mg) mg 1) ∧ (ent true).c = true ∧ (ent true).stripe = none ∧ 6 ≤ (ent true).bits ∧
    mm.cp ≠ 3 ∧ mm.ord ≠ 2 ∧ mt.cp = 3 ∧ mq.ord = 2 ∧ 2 ≤ mq.sc.toNat := by
  refine ⟨calm_ps, by decide, ok_of (by decide +kernel), ?_, issuesP rfl (by decide +kernel), by decide⟩
  intro r hr
  simp only [List.mem_cons, List.not_mem_nil, or_false] at hr
  rcases hr with rfl | rfl | rfl <;> exact reaches_one (by decide +kernel) (by decide +kernel) (by decide +kernel)
/-- One lane whose local address is 0 or the last word of the local area. -/
def lm (a : Word) : Group := { tg with mask0 := 1, live := 1, v := [(64, a), (192, 3)] }
theorem inLocal_one {b : Block} {g : Group} {r : MWord}
    (h : 0 ≤ scrAddr g r 0 ∧ scrAddr g r 0 + accSize r ≤ b.localSize ∧ scrAddr g r 0 % accSize r = 0) : InLocal b g 1 r := by
  intro l _ hm
  simp at hm
  cases hm
  exact h
/-- Fragments of 16 bytes a lane, laid and transposed. -/
def mf (t : BitVec 8) : MWord := { mm with sz := 4, b := t }
def ms (t : BitVec 8) : MWord := { mm with sz := 4, d := t, b := 8 }
theorem witness_LocalLoads : ∀ a ∈ [(0 : Word), 4092],
    (ts (lm a)).blockOf (lm a) = some placedBlock ∧ (lm a).consume 4 1 [(mm.a.toNat, 1, mm.au)] = .ok () ∧
      InLocal placedBlock (lm a) 1 mm ∧ Issues (.lds mm) (ts (lm a)) (lm a) 1 := by
  intro a ha
  simp only [List.mem_cons, List.not_mem_nil, or_false] at ha
  rcases ha with rfl | rfl <;>
    exact ⟨by decide +kernel, ok_of (by decide +kernel), inLocal_one (by decide +kernel), issues_of_ok rfl (by decide +kernel)⟩
theorem witness_LocalLoads_fragments : ∀ t ∈ [(0 : BitVec 8), 4, 6],
    (lm 4080).consume 4 1 [((mf t).a.toNat, 1, (mf t).au)] = .ok () ∧ InLocal placedBlock (lm 4080) 1 (mf t) ∧
      Issues (.ldm (mf t)) (ts (lm 4080)) (lm 4080) 1 ∧ 4 ≤ (mf t).sz.toNat ∧ (mf t).sz.toNat ≤ 5 ∧
      fragT (mf t).b.toNat = (t != 0) := by
  intro t ht
  simp only [List.mem_cons, List.not_mem_nil, or_false] at ht
  rcases ht with rfl | rfl | rfl <;>
    exact ⟨ok_of (by decide +kernel), inLocal_one (by decide +kernel), issues_of_ok rfl (by decide +kernel), by decide +kernel⟩
theorem witness_LocalStores : (lm 4092).blk = some 0 ∧ aget? 0 (ts (lm 4092)).blocks = some placedBlock ∧
    (lm 4092).consume 4 1 [(mm.a.toNat, 1, mm.au)] = .ok () ∧ InLocal placedBlock (lm 4092) 1 mm ∧
    Issues (.sts mm) (ts (lm 4092)) (lm 4092) 1 ∧
    ∀ t ∈ [(0 : BitVec 8), 4], InLocal placedBlock (lm 4080) 1 (ms t) ∧ Issues (.stm (ms t)) (ts (lm 4080)) (lm 4080) 1 ∧
      4 ≤ (ms t).sz.toNat ∧ fragT (ms t).d.toNat = (t != 0) := by
  refine ⟨rfl, rfl, ok_of (by decide +kernel), inLocal_one (by decide +kernel), issues_of_ok rfl (by decide +kernel), ?_⟩
  intro t ht
  simp only [List.mem_cons, List.not_mem_nil, or_false] at ht
  rcases ht with rfl | rfl <;> exact ⟨inLocal_one (by decide +kernel), issues_of_ok rfl (by decide +kernel), by decide +kernel⟩
/-- A lane that stores a poisoned register. -/
theorem witness_LocalStores_poison : (let g : Group := { lm 4092 with vPoison := [(6, 1)] }
    Issues (.sts mm) (ts g) g 1 ∧ (g.poisonV 6).getLsbD 0 = true ∧ g.consume 4 1 [(mm.a.toNat, 1, mm.au)] = .ok ()) :=
  ⟨issues_of_ok rfl (by decide +kernel), by decide +kernel, ok_of (by decide +kernel)⟩
theorem witness_ScratchpadAtomics : ∀ sz ∈ [(2 : BitVec 3), 3, 4], let r : MWord := { mm with sz }
    2 ≤ r.sz.toNat ∧ r.sz.toNat ≤ 4 ∧ (lm 16).consume 4 1 [(r.a.toNat, 1, r.au)] = .ok () ∧ InLocal placedBlock (lm 16) 1 r ∧
      placedBlock.locPoison = [] ∧ (lm 16).vPoison = [] ∧ ∀ i ∈ (scratchAtomics r).map Prod.fst, Issues i (ts (lm 16)) (lm 16) 1 := by
  intro sz h
  simp only [List.mem_cons, List.not_mem_nil, or_false] at h
  rcases h with rfl | rfl | rfl <;>
    exact ⟨by decide, by decide, ok_of (by decide +kernel), inLocal_one (by decide +kernel), rfl, rfl, issuesU_all rfl (by decide +kernel)⟩
/-- Atomics of device scope and of block scope. -/
def md : MWord := { mm with sc := 2 }
theorem witness_DeviceAtomics : Calm (ps mg) mg ∧ 2 ≤ md.sz.toNat ∧ md.sz.toNat ≤ 4 ∧ 2 ≤ md.sc.toNat ∧
    mg.consume 4 1 [(md.a.toNat, 2, md.au)] = .ok () ∧ mg.vPoison = [] ∧ (ps mg).memPoison = [] ∧
    (∀ ok, Reaches (ps mg) ((ps mg).whoGroup mg) .atomicDev ok 1 (genAddr mg md) (accSize md) (fun _ => ent true) (fun _ => 0x200000)) ∧
    ∀ i ∈ (returningAtomics md).map Prod.fst ++ (reductions md).map Prod.fst, Issues i (ps mg) mg 1 := by
  refine ⟨calm_ps, by decide, by decide, by decide, ok_of (by decide +kernel), rfl, by decide +kernel, ?_, issuesP rfl (by decide +kernel)⟩
  intro ok
  cases ok <;> exact reaches_one (by decide +kernel) (by decide +kernel) (by decide +kernel)
theorem witness_BlockAtomics : Calm (ps mg) mg ∧ mm.sc.toNat < 2 ∧ mg.consume 4 1 [(mm.a.toNat, 2, mm.au)] = .ok () ∧
    ((ps mg).core 0).l1Poison = [] ∧ (ent true).c = true ∧ (∀ k, k < 4 → (ps mg).readPhys (0x200000 + k) = 0) ∧
    (∀ ok, Reaches (ps mg) ((ps mg).whoGroup mg) .atomicBlk ok 1 (genAddr mg mm) (accSize mm) (fun _ => ent true) (fun _ => 0x200000)) ∧
    ∀ i ∈ (returningAtomics mm).map Prod.fst ++ (reductions mm).map Prod.fst, Issues i (ps mg) mg 1 := by
  refine ⟨calm_ps, by decide, ok_of (by decide +kernel), by decide +kernel, rfl, by decide +kernel, ?_, issuesP rfl (by decide +kernel)⟩
  intro ok
  cases ok <;> exact reaches_one (by decide +kernel) (by decide +kernel) (by decide +kernel)
theorem witness_CacheAndProbeWords : mg.consume 4 1 [(mm.a.toNat, 2, mm.au)] = .ok () ∧ ((ps mg).core mg.core).perm.length ≤ 400 ∧
    (ps mg).postedOut mg.core 1 = false ∧
    ∀ i ∈ [Instr.roinv rr, .pref mm, .cctlWb mm, .cctlInv mm, .cctlWbinv mm, .cctlSyswb mm, .cctlSysinv mm, .probe mm],
      Issues i (ps mg) mg 1 :=
  ⟨ok_of (by decide +kernel), by decide +kernel, by decide +kernel, issuesP rfl (by decide +kernel)⟩
/-- A posted write of the context that is not acknowledged. -/
theorem witness_CacheAndProbeWords_posted : ({ ps mg with requests := [(9, rq .posted)] } : State).postedOut mg.core 1 = true := by decide +kernel
/-- FENCE with release and acquire, with acquire only, at device scope. -/
def fr (x : BitVec 9) : RWord := { rr with xop := x }
theorem witness_FenceWord : Calm (ps mg) mg ∧ (∀ i ∈ ([14, 10, 6, 2, 15, 13] : List (BitVec 9)).map (fun x => Instr.fence (fr x)), Issues i (ps mg) mg 1) ∧
    isOk ((ps mg).release mg 1 2 (mg.mask false)) = true ∧ xbit (fr 14) 3 = true ∧ xbit (fr 6) 3 = false ∧ xbit (fr 6) 2 = true := by
  exact ⟨calm_ps, issuesP rfl (by decide +kernel), by decide +kernel, by decide⟩
/-- A block with a stash, and a group that maps its first granule at 0x200000 and then names a granule past its end. -/
def sb : Block := { placedBlock with stashSize := 8192 }
def stg (off : Word) : Group := { tg with s := [(2, off), (6, 0x200000), (8, 4096)] }
def sr : RWord := { rr with c := 8 }
theorem witness_StashWords : ∀ off ∈ [(4096 : Word), 8192, 12288],
    let s : State := { ts (stg off) with blocks := [(0, sb)] }
    Issues (.stmap sr) s (stg off) tm ∧ Issues (.stunmap sr) s (stg off) tm ∧ (stg off).blk = some 0 ∧ aget? 0 s.blocks = some sb := by
  intro off h
  simp only [List.mem_cons, List.not_mem_nil, or_false] at h
  rcases h with rfl | rfl | rfl <;>
    exact ⟨⟨rfl, fun e => (nomatch e), fun _ => .inr (.inl rfl), by decide +kernel, by decide +kernel⟩,
      ⟨rfl, fun e => (nomatch e), fun _ => .inr (.inl rfl), by decide +kernel, by decide +kernel⟩, rfl, rfl⟩
/-- What the statuses ask of an offset, a length and a page: a whole number of granules, inside the stash, canonical to its last byte, free. -/
def stashAsks (b : Block) (off len : Nat) (va : DWord) : List Bool :=
  [off % 4096 == 0 && len % 4096 == 0 && len != 0 && va.toNat % 4096 == 0, decide (b.localSize ≤ off ∧ off + len ≤ b.localSize + b.stashSize),
   canonical va && canonical (va + BitVec.ofNat 64 (len - 1)),
   b.stash.all (fun q => !(decide ((off - b.localSize) / 4096 ≤ q.1 ∧ q.1 < (off - b.localSize + len) / 4096)))]
theorem witness_StashWords_status :
    stashAsks sb 8192 4096 0x200000 = [true, true, true, true] ∧ (stashAsks sb 8192 4096 0x200001).head? = some false ∧
    (stashAsks sb 8192 0 0x200000).head? = some false ∧ stashAsks sb 8192 8192 0x200000 = [true, false, true, true] ∧
    stashAsks sb 0 4096 0x200000 = [true, false, true, true] ∧ stashAsks sb 4096 8192 0x00FFFFFFFFFFF000 = [true, true, false, true] ∧
    stashAsks { sb with stash := [(1, { page := 0, w := false })] } 4096 8192 0x200000 = [true, true, true, false] := by
  decide +kernel

/-! ## Witnesses for engines, barriers, matrix words and launch -/

theorem get_of {α : Type} {x : Res α} (h : isOk x = true) : ∃ o, x = .ok o := by
  cases x with
  | ok u => exact ⟨u, rfl⟩
  | error e => cases h
/-- The length of an operation that passes its checks. -/
def opLen (x : Res EngineOp) : Nat := match x with
  | .ok o => o.len
  | .error _ => 0
/-- Operands of CPY and CPYF; of CPYT, a row of 16 bytes; of GATH and SCAT, one row of 16 bytes. -/
def cg : Group := { tg with s := [(2, 0x300000), (4, 0x200000), (6, 64)] }
def tr : RWord := { rr with d := 4, a := 16, b := 40 }
def ttg : Group := { tg with s := [(16, 0x200000), (18, 4), (20, 16), (29, 15)] }
def gr : RWord := { rr with a := 16 }
def gg : Group := { tg with s := [(16, 0x200000), (19, 16), (21, 1)] }
theorem witness_EngineWords_issue :
    (∀ k g, (k, g) ∈ [(linearOp 1 rr (ts cg) cg tm, cg), (linearOp 3 rr (ts cg) cg tm, cg), (tileOp tr (ts ttg) ttg tm, ttg),
        (gatherOp 4 gr (ts gg) gg tm, gg), (gatherOp 5 gr (ts gg) gg tm, gg)] →
      isOk k = true ∧ opLen k ≠ 0 ∧ ((ts g).slotFor 0 256 false).isSome = true ∧ ((ts g).slotFor 0 256 true).isSome = true) ∧
    (∀ i ∈ [Instr.cpy rr, .cpyf rr], Issues i (ts cg) cg tm) ∧ Issues (.cpyt tr) (ts ttg) ttg tm ∧
    ∀ i ∈ [Instr.gath gr, .scat gr], Issues i (ts gg) gg tm := by
  refine ⟨?_, issuesU_all rfl (by decide +kernel), issues_of_ok rfl (by decide +kernel), issuesU_all rfl (by decide +kernel)⟩
  intro k g h
  simp only [List.mem_cons, List.not_mem_nil, or_false, Prod.mk.injEq] at h
  rcases h with ⟨rfl, rfl⟩ | ⟨rfl, rfl⟩ | ⟨rfl, rfl⟩ | ⟨rfl, rfl⟩ | ⟨rfl, rfl⟩ <;> decide +kernel
theorem witness_EngineWords_operation : xf rr 0 9 = 0 ∧ (∀ k, k < 64 → cg.poisonS k = false) ∧ rr.d.toNat < 63 ∧ rr.a.toNat < 63 ∧
    rr.b.toNat < 64 ∧ 0 < (cg.getS rr.b.toNat).toNat ∧ canonical (cg.getS64 rr.d.toNat) = true ∧ canonical (cg.getS64 rr.a.toNat) = true ∧
    canonical (cg.getS64 rr.d.toNat + BitVec.ofNat 64 ((cg.getS rr.b.toNat).toNat - 1)) = true ∧
    canonical (cg.getS64 rr.a.toNat + BitVec.ofNat 64 ((cg.getS rr.b.toNat).toNat - 1)) = true := by
  decide +kernel
/-- WAITC at its limit, from a register and from the word; CPYQ; CPYX. -/
def wg : Group := { tg with ccopy := 6, s := [(2, 6)] }
theorem witness_EngineWords_wait :
    (∀ x ∈ [(0 : BitVec 9), 128], Issues (.waitc { rr with xop := x }) (ts wg) wg tm ∧
      wg.count false ≤ (if xbit { rr with xop := x } 7 then (wg.getS rr.a.toNat).toNat else rr.b.toNat)) ∧
    wg.poisonS rr.a.toNat = false ∧ ((ts wg).opsOf 0 256 false).find? (fun o => o.state == 3 && o.reported) = none ∧
    ∀ i ∈ [Instr.cpyq rr, .cpyx rr], Issues i (ts wg) wg tm := by
  refine ⟨?_, by decide +kernel, by decide +kernel, issuesU_all rfl (by decide +kernel)⟩
  intro x h
  simp only [List.mem_cons, List.not_mem_nil, or_false] at h
  rcases h with rfl | rfl <;> exact ⟨issues_of_ok rfl (by decide +kernel), by decide +kernel⟩
/-- BAR without a count; with the counts 1, 0 and 2 in a block of one group. -/
def br (x : BitVec 9) : RWord := { rr with xop := x }
def bg (n : Word) : Group := { tg with s := [(2, n)] }
theorem witness_BarrierWords_bar : Issues (.bar (br 0)) (ts tg) tg tm ∧ tg.blk = some 0 ∧ aget? 0 (ts tg).blocks = some placedBlock ∧
    (∀ n ∈ [(0 : Word), 1, 2], Issues (.bar (br 32)) (ts (bg n)) (bg n) tm) ∧ xbit (br 0) 5 = false ∧ xbit (br 32) 5 = true ∧
    ((bg 0).getS 2).toNat = 0 ∧ placedBlock.ngroup < ((bg 2).getS 2).toNat ∧ ((bg 1).getS 2).toNat ≤ placedBlock.ngroup ∧
    aget? 0 placedBlock.bars = none := by
  refine ⟨issues_of_ok rfl (by decide +kernel), rfl, rfl, ?_, by decide +kernel⟩
  intro n h
  simp only [List.mem_cons, List.not_mem_nil, or_false] at h
  rcases h with rfl | rfl | rfl <;> exact issues_of_ok rfl (by decide +kernel)
/-- A barrier at which one group has arrived under a count, where BAR comes without one. -/
def barS : State := { ts tg with blocks := [(0, { placedBlock with bars := [(0, { arrivals := 1, e := 2, cnt := true })] })] }
theorem witness_BarrierWords_phase : Issues (.bar (br 0)) barS tg tm ∧ true ≠ xbit (br 0) 5 :=
  ⟨issues_of_ok rfl (by decide +kernel), by decide⟩
/-- A block whose barrier 0 expects 2, and whose last, barrier 15, is free. -/
def tb0 : Tb := { v := true, ph := false, er := false, exp := 2, pend := 2, tx := 0 }
def tbb : Block := { placedBlock with tbars := [(0, tb0.word)] }
def tbs (c : Word) : State := { ts (bg c) with blocks := [(0, tbb)] }
theorem witness_BarrierWords_tb :
    (tbb.tb 0).v = true ∧ (tbb.tb 0).er = false ∧ (tbb.tb 0).pend ≠ 0 ∧ txOk (tbb.tb 0).tx = true ∧ tbNum (br 0) (bg 1) = 0 ∧
    tbNum (br 30) (bg 1) = 15 ∧ 15 < tbb.ntbar ∧ (tbb.tb 15).v = false ∧ (tbs 1).tbFailure (bg 1) 0 = none ∧
    ((bg 1).getS 2).toNat = 1 ∧ ((bg 4095).getS 2).toNat = 4095 := by
  decide +kernel
theorem witness_BarrierWords_tb_issue : ∀ i ∈ [Instr.tbinit (br 30), .tbarr (br 0), .tbexp (br 0), .tbwait (br 0), .tbtest (br 0), .tbinv (br 0)],
    Issues i (tbs 4095) (bg 4095) tm := issuesU_all rfl (by decide +kernel)
/-- TBWAIT asks for a parity that is past, and for the current one; a group that the barrier has woken; a group that waits there, one that
waits for the other phase. -/
def tbg (w : Wait) : Group := { bg 1 with wait := w }
theorem witness_BarrierWords_tbwait :
    (tbb.tb 0).ph ≠ ((bg 0).setS 6 1 false |>.getS 6).getLsbD 0 ∧ (tbb.tb 0).ph = ((bg 0).getS 6).getLsbD 0 ∧ (∀ k, (bg 0).wait ≠ .tbwoken k) ∧
    Issues (.tbwait (br 0)) { tbs 1 with groups := [(256, tbg (.tbwoken 0))] } (tbg (.tbwoken 0)) tm ∧
    ({ tbs 1 with groups := [(256, tbg (.tbwoken 0))] } : State).tbFailure (tbg (.tbwoken 0)) 0 = none ∧
    (∀ p ∈ [true, false], ({ tbs 1 with groups := [(256, tbg (.tbwait 0 p))] } : State).group? 256 = some (tbg (.tbwait 0 p))) ∧
    (tbb.tb 0).ph ≠ true ∧ (tbb.tb 15).v = false :=
  ⟨by decide +kernel, by decide +kernel, fun _ h => (nomatch h),
    ⟨rfl, fun e => (nomatch e), fun _ => .inr (.inl rfl), by decide +kernel, by decide +kernel⟩, by decide +kernel, by decide +kernel,
    by decide +kernel, by decide +kernel⟩
/-- A grid whose slot 0 holds FP16 and whose slot 1 holds 8-bit integers with scales; four groups of one quad. -/
def fsGrid : Grid := { placedGrid with fs := [0x22, 0x5CC] }
def qb : Block := { placedBlock with ngroup := 4 }
def quad (w : Wait) (g : Group) : State :=
  { ts g with groups := [(256, g), (257, { g with gid := 1, wait := w }), (258, { g with gid := 2, wait := w }),
                         (259, { g with gid := 3, wait := w })], blocks := [(0, qb)], grids := [(gridKey 0 1, fsGrid)] }
def mr : RWord := { rr with d := 64, a := 0, b := 32 }
theorem witness_MatrixWords :
    IssuesWith (.mma mr) (quad .none tg) tg tm (slotBad slotMma mr (quad .none tg) tg) [] ∧
    IssuesWith (.mcvt mr) (quad .none tg) tg tm (mcvtBad mr (quad .none tg) tg) (mcvtRuns mr (quad .none tg) tg) ∧
    32 / fmtWidth (fsAF ((quad .none tg).slotOf tg (xf mr 6 3))) * mcvtRegs mr ((quad .none tg).slotOf tg (xf mr 6 3)) = mcvtN mr ∧
    Issues (.mzero mr) (quad .none tg) tg tm ∧ Issues (.fslot mr) (quad .none tg) tg tm ∧ ∀ f, Quiet tg false tm f :=
  ⟨⟨rfl, fun e => (nomatch e), fun _ => .inr (.inl rfl), by decide +kernel, by decide +kernel⟩,
    ⟨rfl, fun e => (nomatch e), fun _ => .inr (.inl rfl), by decide +kernel, by decide +kernel⟩, by decide +kernel,
    ⟨rfl, fun e => (nomatch e), fun _ => .inr (.inl rfl), by decide +kernel, by decide +kernel⟩,
    ⟨rfl, fun e => (nomatch e), fun _ => .inr (.inl rfl), by decide +kernel, by decide +kernel⟩, fun _ => quiet_of_masked rfl⟩
/-- The quad's other members not yet waiting, and waiting at the same word. -/
def mrs : RWord := { mr with c := 48, xop := 64 }
def qs (i : Instr) : State :=
  (quad (.joint (wordOf i)) tg).modGroup 256 (fun g => { g with wait := .joint (wordOf i) })
theorem trapLanes_masked {g : Group} {m : Mask} {f : Nat → Flags} (h : g.fpmode = 0) : trapLanes g m f = 0 := by
  unfold trapLanes
  rw [h]
  simp
  rfl
theorem witness_JointWords :
    tg.blk = some 0 ∧ aget? 0 (quad .none tg).blocks = some qb ∧ 4 * (tg.gid / 4) + 4 ≤ qb.ngroup ∧
    (∀ k ∈ quadKeys 0 0, ∀ x ∈ (quad .none tg).group? k, x.state ≠ .ended) ∧
    IssuesWith (.mmaq mr) (quad .none tg) tg tm (slotBad slotMma mr (quad .none tg) tg) [] ∧
    IssuesWith (.mmaqs mrs) (quad .none tg) tg tm (slotBad slotMmaqs mrs (quad .none tg) tg) (mmaqsRuns mrs (quad .none tg) tg) ∧
    (((quadKeys 0 0).mapM ((quad .none tg).modGroup 256 (fun g => { g with wait := .joint (wordOf (.mmaq mr)) })).jointMember).isNone = true) ∧
    (∀ i ∈ [Instr.mmaq mr, .mmaqs mrs], ((quadKeys 0 0).mapM (qs i).jointMember).isSome = true ∧
      ∀ l ∈ (quadKeys 0 0).mapM (qs i).jointMember, ∀ e ∈ l, opField e.1 = opField (wordOf i) ∧ e.2.g.fpmode = 0) :=
  ⟨rfl, rfl, by decide, by decide +kernel,
    ⟨rfl, fun e => (nomatch e), fun _ => .inr (.inl rfl), by decide +kernel, by decide +kernel⟩,
    ⟨rfl, fun e => (nomatch e), fun _ => .inr (.inl rfl), by decide +kernel, by decide +kernel⟩, by decide +kernel, by decide +kernel⟩
/-- A launch record of one block of one group at 0x200000; a parent of depth 10 is what LAUNCH traps on. -/
def recordWords : List (Nat × Nat) :=
  [(0x200000, 0x100000001), (0x200010, 0x100000001), (0x200018, 1), (0x200040, 0x100000), (0x200048, 0x010101)]
def launchG (va : Word) : Group := { mg with s := [(2, va)] }
def launchS (va : Word) : State := (ps (launchG va)).putWords recordWords
/-- The record's read, and its status. -/
def launchRun (va : Word) : RecordRun :=
  readRecord ((launchS va).publish 0) (((launchS va).publish 0).whoCtx 0 1) (((launchG va).getS64 2)) Pend.empty
/-- A word issues in any device whose slot 0 of `cur` is that of the group. -/
theorem issues_in {s : State} {i : Instr} {g : Group} {m : Mask} (hg : s.group? s.cur.key = some g) (h0 : s.cur.slot1 = false)
    (hd : g.divided = false) (h : okWord g m i = true) : Issues i s g m := by
  simp only [okWord, Bool.and_eq_true, Option.isNone_iff_eq_none, beq_iff_eq] at h
  refine ⟨hg, ?_, fun _ => .inr (.inl hd), ?_, ?_⟩
  · rw [h0]; intro e; cases e
  · rw [h0]; exact h.1
  · rw [h0]; exact h.2
/-- The bytes of that record. -/
def recBytes : List Byte := recordWords.foldl (fun l e => l.take (e.1 - 0x200000) ++ leBytes e.2 8 ++ l.drop (e.1 - 0x200000 + 8))
  (List.replicate 256 0)
theorem witness_LaunchWord :
    (launchS 0x200000).blockOf (launchG 0x200000) = some placedBlock ∧ (launchS 0x200000).gridOf placedBlock = some placedGrid ∧
    placedGrid.depth ≠ 10 ∧ (launchG 0x200000).poisonS 2 = false ∧ (launchG 0x200000).poisonS 3 = false ∧
    (recordCheck ((launchS 0x200000).publish 0) (((launchS 0x200000).publish 0).whoCtx 0 1) (launchG 0x200000)
      ((launchG 0x200000).getS64 2) 1).isNone = true ∧
    (launchRun 0x200000).needs = [] ∧ (launchRun 0x200000).failed = none ∧ ((launchRun 0x200000).s.rawDesc 0 1).isSome = true := by
  decide +kernel
/-- Its bytes are those of the record, which is accepted; a record of zeros is refused. -/
theorem witness_LaunchWord_bytes : (launchRun 0x200000).bytes = recBytes := by decide +kernel
theorem witness_LaunchWord_status : (ps mg).launchStatus 0 1 (descOf 0 placedDesc) recBytes false = 0 ∧
    (ps mg).launchStatus 0 1 (descOf 0 placedDesc) (List.replicate 256 0) false = 1 := by
  decide +kernel
theorem witness_LaunchWord_issue : Issues (.launch rr) (launchS 0x200000) (launchG 0x200000) 1 := 
  issues_in (by decide +kernel) (by decide +kernel) rfl (by decide +kernel)
/-- A group whose child has retired with status 3; a child by its number; a group with a whole allotment, and with the least. -/
def child : Grid := { placedGrid with seq := 2, depth := 2, parent := some (1, 0, 0), live := false, status := 3, roles := [] }
def cs (g : Group) : State := { ts g with grids := [(gridKey 0 1, placedGrid), (gridKey 0 2, child)] }
def chg : Group := { tg with s := [(2, 2)] }
def low : Group := { tg with allot := 8 }
theorem witness_LaunchClassWords :
    (∀ x ∈ [(0 : BitVec 9), 2], decodeChecks (.cwait (br x)) chg false [] [] = none) ∧
    ((cs chg).children placedBlock 0).filter (fun x => x.seq == (chg.getS64 2).toNat) = [child] ∧ child.live = false ∧
    (decodeChecks (.regacq (br 16)) tg false [] [] = none ∧ regTarget (br 16) ((ts tg).roleOf placedBlock 0).fgran ≤ tg.allot ∧
      regTarget (br 16) ((ts tg).roleOf placedBlock 0).fgran ≤ 8 * ((ts tg).roleOf placedBlock 0).fgran) ∧
    (decodeChecks (.regacq (br 16)) low false [] [] = none ∧ low.allot < regTarget (br 16) ((ts low).roleOf placedBlock 0).fgran ∧
      (ts low).grantable 0 256 (regTarget (br 16) ((ts low).roleOf placedBlock 0).fgran) = true ∧ k0.regq = []) ∧
    (decodeChecks (.regrel (br 0)) tg false [] [] = none ∧
      8 * ((ts tg).roleOf placedBlock 0).pgran ≤ regTarget (br 0) ((ts tg).roleOf placedBlock 0).pgran) := by
  decide +kernel

theorem witness_GANGBAR : let s : State := { ts tg with grids := [(gridKey 0 1, { placedGrid with gang := 2 })] }
    Issues .gangbar s tg tm ∧ ((s.gridOf placedBlock).map Grid.gang).getD 0 ≠ 0 :=
  ⟨⟨rfl, fun e => (nomatch e), fun _ => .inr (.inl rfl), by decide +kernel, by decide +kernel⟩, by decide +kernel⟩

/-! ## Witnesses for tethers -/

/-- The placed context's descriptor. -/
def pd : Desc := ((ps mg).rawDesc 0 1).getD (descOf 0 [])
/-- Endpoint 3 bound by the placed grid with nothing pending, endpoint 4 with a pending signal, in the device with a group whose uniform
registers are l. -/
def epWord (e o : Nat) : Nat := State.reset.placedBase + 0x20000 + 320 * e + o
def tes (l : List (Nat × Word)) : State :=
  (ps { mg with s := l }).putWords [(epWord 3 0, 0x40000000), (epWord 3 8, 1), (epWord 4 0, 0x140000000), (epWord 4 8, 1)]
def teg (l : List (Nat × Word)) : Group := { mg with s := l }
theorem witness_TetherBinding :
    (∀ i ∈ [Instr.treg rr, .tfree rr, .tpermAdd rr, .tpermRemove rr, .tpermClear rr], okWord mg 1 i = true) ∧
    (tes []).blockOf mg = some placedBlock ∧ ((tes []).rawDesc 0 1).isSome = true ∧ mg.poisonS 2 = false ∧ mg.poisonS 6 = false ∧
    mg.poisonS 0 = false ∧ ((tes []).ep 0 pd 3).st = 1 ∧ ((tes []).ep 0 pd 3).ownedBy 1 = true ∧ ((tes []).ep 0 pd 62).st ≠ 1 ∧
    ((tes []).ep 0 pd 63).ownedBy 1 = false ∧ ((teg [(2, 63)]).getS 2).toNat = 63 ∧ ((teg [(2, 64)]).getS 2).toNat = 64 := by
  decide +kernel
/-- TSEND to an endpoint beyond 62, to this chip, and to another chip; the words of a set with and without a pending endpoint. -/
theorem witness_TetherWords :
    (∀ i ∈ [Instr.tsend rr, .twait rr, .tpoll rr, .tmask rr], okWord (teg [(2, 0x3FFF0001), (0, 3)]) 1 i = true) ∧
    ((teg [(0, 63)]).getS 0).toNat = 63 ∧ ((teg [(2, 0x3FFF0001)]).getS 2).toNat / 65536 = 0x3FFF ∧
    ((teg [(2, 0x00050001)]).getS 2).toNat / 65536 ≠ (tes []).chip ∧ isOk ((tes []).release (teg []) 1 2 1) = true ∧
    ((tes []).epSet placedBlock pd 0 16).find? (fun e => ((tes []).epHead 0 pd e).pend != 0) = some 4 ∧
    (tes []).epSet placedBlock pd 0 8 = [3] ∧ ((tes []).epHead 0 pd 3).pend = 0 ∧ (teg []).getS64 2 = 0 := by
  decide +kernel
/-- A chip that some port reaches; one that none does; a set of which none is pending. -/
def peerS : State := { tes [] with routes := [(5, 0xFFFF)], portsUp := 0xFFFF }
theorem witness_TetherWords_peer : isOk ((tes []).release (teg []) 1 3 1) = true ∧ peerS.chipUp (peerS.linkPart 0 1) 5 = true ∧
    (tes []).chipUp ((tes []).linkPart 0 1) 5 = false ∧ (teg []).pend0.bind (fun p => aget? tsendKey p.landed) = none ∧
    (tes []).epSet placedBlock pd 0 8 ≠ [] ∧ ((tes []).epSet placedBlock pd 0 8).find? (fun e => ((tes []).epHead 0 pd e).pend != 0) = none := by
  decide +kernel
/-- A response that has landed for a TSEND. -/
theorem witness_TSEND_response : aget? tsendKey [(tsendKey, (leBytes 0 1, false))] = some (leBytes 0 1, false) := by decide +kernel
def eng' : Group := { tg with inEntry := true, sdepth := 0, spc := 0x100010, smask := 1 }
theorem witness_TRET : Issues (.tret rr) (ts eng') eng' tm ∧ eng'.inEntry = true ∧ eng'.depth = eng'.sdepth :=
  ⟨issues_of_ok rfl (by decide +kernel), rfl, rfl⟩

/-! ## Witnesses for calls, the supervisor's words, debug and hints -/

/-- A word under a guard that no lane passes. -/
theorem witness_CallWords :
    (∀ i ∈ [Instr.syscall qq, .trapW qq, .bkpt qq, .syscallb qq], Issues i (ts tg) tg tm) ∧
    (∀ i ∈ [Instr.syscall { qq with pg := 0 }, .trapW { qq with pg := 0 }, .bkpt { qq with pg := 0 }], Issues i (ts tg) tg 0) ∧
    tg.blk = some 0 :=
  ⟨issuesU_all rfl (by decide +kernel), issuesU_all rfl (by decide +kernel), rfl⟩
/-- A supervisor's core under NEST. -/
def nestS : State := { ss sg with cores := aput 0 { k0 with nest := true, sepc := 0x1008 } (ss sg).cores }
theorem witness_SRET : IssuesWith (.sret rr) nestS sg 1 (if sg.isSup && !(nestS.core sg.core).nest then [5] else []) [] ∧
    (aget? 0 nestS.cores).isSome = true :=
  ⟨⟨rfl, fun e => (nomatch e), fun _ => .inr (.inl rfl), by decide +kernel, by decide +kernel⟩, by decide +kernel⟩
/-- Every word of the supervisor's class issues on the small device. -/
theorem witness_supervisor_words : ∀ i ∈ [Instr.halt rr, .mqpop rr, .mqrplRetry rr, .mqrplNext rr, .mqrplPark rr, .mqrplResume rr, .mqrplFail rr,
      .mqrplAck rr, .vsrd rr, .vswr rr, .csrrd qq, .csrwr qq, .wdpet qq, .swapoutReturn rr, .swapoutStop rr, .swapoutDiscard rr, .swapin rr,
      .hqput rr, .sigpostUser rr, .sigpostStop rr, .sigpostCont rr, .sigpostKill rr, .preempt rr, .preemptRelease rr, .ptinvRange rr,
      .ptinvAsid rr, .ptinvPartition rr, .tcinv rr, .tcpin rr, .tcpinUnpin rr, .wpset rr, .wpsetBp rr, .wpclr rr, .wpclrBp rr, .perfrd rr],
    Issues i (ss sg) sg 1 := issuesS_all rfl (by decide +kernel)
/-- A read that succeeds. -/
def isRead (x : Except (Nat × DWord) (List Byte)) : Bool := match x with
  | .ok _ => true
  | .error _ => false
/-- A core with a popped and an unpopped mooring entry of each kind, and notices. -/
def en (kind : Nat) (popped : Bool) : Moor := { kind, popped, order := kind, key := 256, blk := some 0, seq := 1, linear := 0, op := some 5 }
def no (kind : Nat) (popped : Bool) : Notice :=
  { kind, popped, order := kind, slot := 0, ctxid := 1, info := 0, seq := 1, linear := 0, addr := 0, blk := some 7 }
def op5 : EngineOp :=
  { id := 5, blk := some 0, gather := false, dst := 0, src := 0, len := 64, done := 0, kind := 1, state := 2, tb := none, owner := 0,
    xop := 0, seq := 0, faddr := 0, freason := 0, fcode := 0, coord := [], param := [], slot := none, patPoison := false, complete := false,
    reported := false, pend := Pend.empty, failAge := 0 }
def mk (mq : List (Nat × Moor)) (notices : List (Nat × Notice)) : State :=
  { ts tg with cores := aput 0 { k0 with mq, notices, ops := [op5] } (ts tg).cores }
theorem witness_MooringWords_pop :
    (mk [(0, en 1 false)] []).unpopped 0 = true ∧ (mk [] []).unpopped 0 = false ∧
    oldestPlace ((mk [] [(127, no 1 false)]).core 0).notices Notice.popped Notice.order = some (127, no 1 false) ∧
    oldestPlace ((mk [(127, en 1 false)] []).core 0).mq Moor.popped Moor.order = some (127, en 1 false) ∧
    oldestPlace ((mk [(127, en 1 false)] []).core 0).notices Notice.popped Notice.order = none ∧ (en 1 false).kind = 1 ∧
    (mk [] []).group? (en 1 false).key = some tg ∧ oldestPlace ((mk [] []).core 0).mq Moor.popped Moor.order = none := by
  decide +kernel
theorem witness_MooringWords_reply :
    (∀ kind ∈ [1, 2, 3], (aget? 0 ((mk [(0, en kind true)] []).core 0).mq).filter Moor.popped = some (en kind true) ∧
      (aget? 127 ((mk [(127, en kind true)] []).core 0).mq).filter Moor.popped = some (en kind true)) ∧
    (en 2 true).op.bind ((mk [] []).op? 0) = some op5 ∧ (aget? 0 ((mk [(0, en 1 false)] []).core 0).mq).filter Moor.popped = none ∧
    (aget? (128 - 128) ((mk [] [(0, no 1 true)]).core 0).notices).filter Notice.popped = some (no 1 true) ∧
    (aget? (255 - 128) ((mk [] []).core 0).notices).filter Notice.popped = none := by
  decide +kernel
theorem witness_ControlRegisters : aget? 0 (ts tg).cores = some k0 ∧ (aget? k0.part (ts tg).parts).isSome = true := by decide +kernel
/-- SWAPOUT of an empty slot, of a block whose handle is held, in a reserved mode, and of a block that is settled. -/
theorem witness_SwapWords :
    (ss sg).blockInSlot 0 3 = none ∧ (ts tg).blockInSlot 0 0 = some (0, placedBlock) ∧ (mk [(0, en 1 true)] []).heldHandle 0 0 = true ∧
    (mk [] []).heldHandle 0 0 = false ∧ (((ts tg).modBlock 0 (fun k => { k with stopped := true })).blockBusy 0 = false) ∧
    (((ts tg).modBlock 0 (fun k => { k with stopped := true })).publish 0).postedOut 0 placedBlock.ctxid = false ∧
    (aget? 0 (((ts tg).modBlock 0 (fun k => { k with stopped := true })).publish 0).blocks).isSome = true := by
  decide +kernel
/-- A block with an access in flight, and one whose context's posted write is not acknowledged. -/
theorem witness_SwapWords_waits :
    (let g := { mg with pend0 := some { waiting := [(9, 0)], sent := [], landed := [], fails := [] } }
     (ps g).blockBusy 0 = true) ∧
    (let s : State := { ts tg with requests := [(9, rq .posted)] }
     (s.modBlock 0 (fun k => { k with stopped := true })).blockBusy 0 = false ∧
       ((s.modBlock 0 (fun k => { k with stopped := true })).publish 0).postedOut 0 placedBlock.ctxid = true) := by
  decide +kernel
/-- SWAPIN of a popped KIND 5 notice whose block is reserved and whose image is a block record; HQPUT of 64 mapped bytes. -/
def reserved : Reserve := { part := 0, seq := 1, slot := 1, entry := { linear := 3, recAddr := 0x40000, liveGroups := 1, regs := 8192, need := 0, waits := [], held := false, since := 0, woken := false, behind := none } }
def swapS : State :=
  let s : State := { ps mg with cores := aput 0 { k0 with notices := [(0, no 5 true)], reserve := [(7, reserved)] } (ps mg).cores }
  s.putWords [(s.placedBase + 0x40000, 0x14C424B31), (s.placedBase + 0x40008, 1)]
theorem witness_SwapWords_swapin :
    ((aget? (128 - 128) (swapS.core 0).notices).filter (fun n => n.popped && n.kind == 5)).bind Notice.blk = some 7 ∧
    aget? 7 (swapS.core 0).reserve = some reserved ∧ swapS.grid? 0 1 = some placedGrid ∧
    swapS.recordOk { part := 0, at' := reserved.entry.recAddr } 1 = true ∧
    swapS.recordOk { part := 0, at' := reserved.entry.recAddr } 2 = false ∧
    ((aget? (129 - 128) (swapS.core 0).notices).filter (fun n => n.popped && n.kind == 5)).bind Notice.blk = none := by
  decide +kernel
theorem witness_SwapWords_hqput : isRead (((ps mg).publish 0).ctx0Read ((ps mg).core 0).part 0x50000 64) = true ∧ (0x50000 : Nat) % 64 = 0 := by
  decide +kernel
/-- The placed context is live; no context 5 is. -/
theorem witness_SignalWords : ((ps mg).desc 0 1).isSome = true ∧ (ps mg).desc 0 5 = none ∧ ((ps mg).killStop 1 pd).killTags 1 pd = [] ∧
    (({ ps mg with requests := [(9, rq .load)] } : State).killStop 1 pd).killTags 1 pd = [9] := by
  decide +kernel
theorem witness_InvalidateWords : sg.poisonS 2 = false ∧ sg.poisonS 3 = false ∧ sg.poisonS 6 = false ∧
    invStatus (2 ^ 16 * 2) (sg.getS64 6) 0 = 0 ∧ invStatus 0 1 0 ≠ 0 ∧ codeStatus 0x100000 64 = 0 ∧ codeStatus 0x100001 64 ≠ 0 ∧
    isOk ((ss sg).release sg 0 2 1) = true ∧ (ss sg).redsIn 0 = false ∧ (ss sg).openTags 0 = [] ∧
    ({ ss sg with requests := [(9, rq .load)] } : State).openTags 0 = [9] ∧
    ({ ss sg with requests := [(9, { rq .load with
      acts := [{ op := .add, ty := .nat, off := 0, data := [], poison := false, blk := false, entry := ent true, asid := 1, sva := 0 }] })] } :
      State).redsIn 0 = true := by
  decide +kernel
/-- TCPIN of a range: pinned by the 16th record, refused by a 17th; unpinned; of an ASID that no context has, and of the placed one's. -/
def pin1 (asid : Nat) : Pin := { asid := BitVec.ofNat 16 asid, start := 0x100000, len := 64 }
def pinS (l : List Pin) : State := { ps mg with parts := amod 0 (fun (p : Partition) => { p with pins := l }) (ps mg).parts }
theorem witness_InvalidateWords_pins :
    (pinS (List.replicate 15 (pin1 2))).pinStatus 0 (pin1 1) 1 = 0 ∧ (pinS (List.replicate 16 (pin1 2))).pinStatus 0 (pin1 1) 1 = 4 ∧
    (pinS [pin1 1]).pinStatus 0 (pin1 1) (2 ^ 16 + 1) = 0 ∧ (2 ^ 16 + 1) / 65536 = 1 ∧ ((ss sg).whoAsid 0 9).isNone = true ∧
    ((ps mg).whoAsid 0 1).isSome = true ∧
    ((ps mg).lowerAt ((ps mg).whoCtx 0 1) 0x100000 Pend.empty).2.isNone = true := by
  decide +kernel
theorem witness_DebugWords : (∀ i ∈ [Instr.trace rr, .mark qq, .wpset rr, .wpsetBp rr, .wpclr rr, .wpclrBp rr, .perfrd rr], Issues i (ts tg) tg tm) ∧
    (∀ k, k < 64 → tg.poisonS k = false) ∧ rr.a.toNat < 63 ∧ rr.b.toNat < 64 ∧ rr.c.toNat < 63 :=
  ⟨issuesU_all rfl (by decide +kernel), by decide +kernel, by decide, by decide, by decide⟩
theorem witness_HintWords : (ts tg).group? (ts tg).cur.key = some tg ∧ ((ts tg).cur.slot1 = true → stopsSlot1 (wordOf (.hpri rr)) = false) ∧
    tg.active false 7 false ≠ 0 ∧ tg.active false 0 false = 0 := ⟨rfl, fun e => (nomatch e), by decide, by decide⟩
/-- A privileged word that is none, and one that is not privileged. -/
theorem witness_RetiredAndIllegalWords : (ts tg).group? (ts tg).cur.key = some tg ∧ tg.divided = false ∧ tg.isSup = false ∧
    (let w : DWord := 0x5938000000000001
     w.getLsbD 63 = false ∧ privileged (opField w) = true) ∧
    (let w : DWord := 0x7FF8000000000000
     privileged (opField w) = false ∧ 0x124 < opField w) := by
  decide +kernel

/-! ## Witnesses for the events of the device -/

/-- A group asleep until tick 0; one with slot 1 at a word; one that an entry takes; one whose slot 0 is due a Resolve. -/
def zg : Group := { mg with wait := .sleep, wake := 0 }
def unit1 : CodeUnit := { part := 0, asid := 1, entry := 0x100000, version := 0x201, stepping := 0, bits := 30, words := [0x0078000000000000], born := 3 }
def s1g : Group := { mg with run1 := true, mask1 := 2, pc1 := 0x100000 }
def tmg : Group := { mg with tmask := 16, entrypc := 0x100040 }
def rdg : Group := { mg with mask0 := 0, live := 2, depth := 1, stack := [ie 0 2] }
theorem witness_GroupAndCacheEvents_groups :
    (ps zg).sleepOver zg = true ∧
    ({ ps s1g with units := [{ unit1 with words := [0x3807000000000000] }] } : State).unitWord ((ps s1g).whoGroup s1g) s1g.pc1 = some 0x3807000000000000 ∧
    s1g.run1 = true ∧ s1g.inEntry = false ∧ s1g.parked = false ∧ stopsSlot1 (wordOf .yield) = true ∧
    (((ps tmg).putWords [(epWord 4 0, 0x140000000), (epWord 4 8, 1)]).mayEnter tmg = true) ∧
    (ps rdg).resolveReady rdg = true ∧ 0 < rdg.depth ∧ rdg.stack = [ie 0 2] ∧ (ie 0 2).split = false ∧ (ie 0 2).pm ≠ 0 ∧ (ie 0 2).kind = 1 := by
  decide +kernel
/-- A core whose permission cache holds the placed context's entry and whose L1 holds one byte. -/
def l1S : State := { ps mg with cores := aput 0 { k0 with perm := [ent true], l1 := [(lkey 1 0x200000, (9, true))] } (ps mg).cores }
theorem witness_GroupAndCacheEvents_caches :
    (match (ps mg).permLookup ((ps mg).whoCtx 0 1) 0x200000 with | .ok e => e == ent true | .error _ => false) = true ∧
    (l1S.core 0).perm[0]? = some (ent true) ∧
    (l1S.core 0).l1.any (fun e => e.1 / 256 == lkey 1 (va57 0x200000) / 256) = true ∧ aget? 0 (ps mg).cores = some k0 ∧
    (ps mg).unitWord ((ps mg).whoGroup mg) mg.pc0 = none ∧ ((ps mg).takeFree 1).victim 0 = none ∧ (ps mg).oldestPinned = none := by
  decide +kernel
/-- A unit that no group stands in, which a full share gives up; two pinned ones, of which the older goes where the pins are full. -/
def farUnit : CodeUnit := { unit1 with entry := 0x180000 }
theorem witness_GroupAndCacheEvents_victim :
    (({ ps mg with units := [farUnit] } : State).takeFree 1).victim 0 = some farUnit ∧
    (let pin (p : Partition) : Partition := { p with pins := [{ asid := 1, start := 0x180000, len := 64 }] }
     let late := { farUnit with entry := 0x180020, born := 7 }
     let s : State := { ps mg with units := [late, farUnit], parts := amod 0 pin (ps mg).parts }
     s.oldestPinned = some farUnit ∧ s.victim 0 = none) ∧
    ({ ps mg with units := [farUnit] } : State).unitWord ((ps mg).whoGroup mg) mg.pc0 = none := by
  decide +kernel
/-- A group that an entry takes at a barrier, and one that it takes as it waits at none. -/
def bwg : Group := { tmg with wait := .bar 3 }
theorem witness_GroupAndCacheEvents_entry :
    (((ps bwg).putWords [(epWord 4 0, 0x140000000), (epWord 4 8, 1)]).mayEnter bwg = true) ∧ bwg.wait = .bar 3 ∧
    (true = true ↔ (bwg.wait = .gangbar ∨ ∃ id, bwg.wait = .bar id)) ∧ (false = true ↔ (tmg.wait = .gangbar ∨ ∃ id, tmg.wait = .bar id)) ∧
    aget? tmg.core (ps tmg).cores = some k0 ∧ (ie 0 2).kind ≠ 2 ∧ rdg.belowEntry 0 = false := by
  refine ⟨by decide +kernel, rfl, ⟨fun _ => .inr ⟨3, rfl⟩, fun _ => rfl⟩, ⟨fun h => (nomatch h), fun h => ?_⟩, by decide +kernel, by decide, by decide +kernel⟩
  rcases h with h | ⟨_, h⟩ <;> cases h
/-- An operation of 64 bytes from 0x300000 to 0x200000 that runs, one that has moved them, one that faults, one that waits for a slot. -/
def run5 : EngineOp := { op5 with dst := 0x200000, src := 0x300000, slot := some 0, state := 1 }
def opS (o : EngineOp) : State := { ps mg with cores := aput 0 { k0 with ops := [o] } (ps mg).cores }
/-- What the operation meets. -/
def moves (x : Except EngStop (State × Nat)) : Nat := match x with
  | .ok _ => 0
  | .error (.fault _ _) => 1
  | .error (.link _ _) => 2
  | .error .badIndex => 3
  | .error (.need _ _) => 4
  | .error _ => 5
theorem witness_EngineEvents :
    (opS run5).movable 0 5 = some run5 ∧ run5.done < run5.len ∧ moves (engNext (opS run5) 0 run5 16) = 0 ∧
    (let o := { run5 with done := 64 }
     (opS o).movable 0 5 = some o ∧ o.len ≤ o.done) ∧
    (let o := { run5 with dst := 0x40000000 }
     (opS o).movable 0 5 = some o ∧ moves (engNext (opS o) 0 o 1) = 1) ∧
    (let o := { run5 with pend := { waiting := [], sent := [], landed := [], fails := [(0x300000 / 64, 33)] } }
     ((opS o).op? 0 5).filter (fun o => o.state == 1 && !o.complete) = some o ∧ moves (engNext (opS o) 0 o 1) = 2) ∧
    (opS op5).freeSlot 0 false = some 0 ∧
    ((opS op5).core 0).ops.find? (fun o => o.gather == false && o.slot.isNone && !(o.complete && o.state != 3)) = some op5 := by
  decide +kernel
/-- The placed context with the lowest GiB at the GiB of host memory that holds address 0. -/
def hostGig (s : State) : State := s.putWords [(placedRoot + 8192, gigLeaf hostBase true)]
/-- An operation whose source a link must bring; a gather whose index is poisoned. -/
def needS : State := hostGig (opS run5)
def gath5 : EngineOp := { run5 with kind := 4, gather := true, param := [0x200000, 0, 16, 16, 0, 1, 64] }
def badS : State := { opS gath5 with blocks := [(0, { placedBlock with locPoison := [0] })] }
theorem witness_EngineEvents_need : needS.movable 0 5 = some run5 ∧ run5.done < run5.len ∧ moves (engNext needS 0 run5 64) = 4 ∧
    badS.movable 0 5 = some gath5 ∧ gath5.done < gath5.len ∧ moves (engNext badS 0 gath5 1) = 3 := by
  decide +kernel
/-- A group that waits for a slot that is free. -/
theorem witness_EngineEvents_waiter : (let g := { mg with wait := .engineSlot false }
    let s : State := { ps g with cores := aput 0 { k0 with slotq := [(false, 256)] } (ps g).cores }
    s.freeSlot 0 false = some 0 ∧ (s.core 0).ops = [] ∧ s.firstWaiter 0 false = some 256) := by
  decide +kernel
/-- A core whose only group waits for registers that it cannot have; one that can; a core that may ask; grids that are late. -/
def waitR (g : Group) (n : Nat) : State := { ps g with cores := aput 0 { k0 with regq := [(256, n)] } (ps g).cores }
def lateGrid : Grid := { placedGrid with seq := 3, claimed := 0, stamp := 0 }
def swapped : Swapped := { linear := 0, recAddr := 0x40000, liveGroups := 1, regs := 8192, need := 0, waits := [], held := false, since := 0, woken := false, behind := none }
theorem witness_DistributorEvents_grant :
    (waitR { mg with allot := 8 } 16).nextGrant 0 = some (256, 16) ∧ (waitR mg 65536).nextGrant 0 = none ∧
    (waitR mg 65536).regStalled 0 = true ∧ (waitR mg 65536).youngestBlock 0 (fun _ => true) = some (0, placedBlock) ∧
    ((waitR mg 65536).postMoor 0 { kind := 3, popped := false, order := 0, key := 0, blk := some 0, seq := 1, linear := 0, op := none }).2 = true ∧
    (ps mg).mayAsk 0 = true := by
  decide +kernel
theorem witness_DistributorEvents_late :
    (let s : State := { ps { mg with wait := .cwait [3] } with
       tick := 20000, grids := [(gridKey 0 1, placedGrid), (gridKey 0 3, lateGrid)] }
     s.gridOrder 0 = [placedGrid] ++ lateGrid :: [] ∧ s.ready placedGrid = false ∧ s.ready lateGrid = true ∧
       20000 ≤ (s.tick - lateGrid.stamp).toNat ∧ loadsFit 4 [lateGrid.firstLoad] = true ∧
       (s.healthy 0).findSome? (fun c => s.youngestBlock c (fun e => s.allInCwait e.1 && !s.requested c e.1)) = some (0, placedBlock)) ∧
    (let g := { placedGrid with returns := [swapped] }
     let b := { placedBlock with linear := 1 }
     let s : State :=
       { ps mg with tick := 20000, grids := [(gridKey 0 1, g)], blocks := [(0, b)], cores := [(0, { k0 with vacating := true })] }
     s.grid? 0 1 = some g ∧ s.eligibleEntry g swapped = true ∧ 20000 ≤ (s.tick - swapped.since).toNat ∧ s.couldReadmit g swapped = false ∧
       s.blocks.filter (fun e => e.2.part == 0 && e.2.seq == 1 && 0 < e.2.linear && !s.requested e.2.core e.1) = [(0, b)]) := by
  decide +kernel
theorem witness_DistributorEvents_displace : placedBlock.gang = false ∧ placedBlock.seq ≠ 3 ∧
    (((ps mg).gridOf placedBlock).map Grid.gang).getD 0 = 0 := by
  decide +kernel
theorem witness_DistributorEvents_enlist : (let e : Enlist := { seq := 1, cores := [0], since := 0 }
    let s : State := { ps mg with tick := 10000, parts := amod 0 (fun (p : Partition) => { p with enlists := [e] }) (ps mg).parts }
    (s.part 0).enlists.find? (fun x => x.seq == 1) = some e ∧ 10000 ≤ (s.tick - e.since).toNat) := by
  decide +kernel
theorem witness_DistributorEvents_retire :
    (let s := ps { mg with state := .ended, live := 0 }
     aget? 0 s.blocks = some placedBlock ∧ s.blockDone 0 placedBlock = true ∧ (s.publish 0).postedOut 0 1 = false) ∧
    (let g := { placedGrid with retired := 1 }
     let s : State := { ps mg with grids := [(gridKey 0 1, g)] }
     s.grid? 0 1 = some g ∧ s.gridDone g = true) ∧
    ((quadKeys 0 0).mapM (qs (.mmaq mr)).jointMember).isSome = true := by
  decide +kernel
/-- A write that succeeds. -/
def writes (x : Except (Nat × DWord) State) : Bool := match x with
  | .ok _ => true
  | .error _ => false
/-- A group that waits in a call whose first lane has the arguments l in v1 to v4. -/
def callG (n : Nat) (l : List (Nat × Word)) : Group :=
  { mg with parked := true, state := .moored, trap := { cause := 16, w0 := BitVec.ofNat 32 n, w1 := 1, w2 := 0, lanes := 1, unfin := 0 }, v := l }
def callS (g : Group) : State := { ps g with cores := aput 0 { k0 with mq := [(0, en 1 true)] } (ps g).cores }
theorem witness_CallEvents :
    (∀ n ∈ [1, 2, 3, 4, 0x800], (callS (callG n [])).callOf 0 0 = some (256, callG n [], n)) ∧
    (callG 2 []).arg64 1 0 = 0 ∧ (callG 2 [(32, 65536)]).arg64 1 0 = 65536 ∧ 65536 ≤ (ps mg).partBytes 0 ∧
    canonical 0x40000000 = true ∧ canonical (0x40000000 + 65535) = true ∧
    (callS (callG 2 [])).spaceFree ((callS (callG 2 [])).whoGroup (callG 2 [])) 0x40000000 65536 = true ∧
    ((callS (callG 4 [])).rawDesc 0 1).isSome = true ∧ (callS (callG 0x800 [])).awaits = [] := by
  decide +kernel
/-- Lengths that the partition's memory and the context's space cannot hold; a base whose last byte is the greatest address. -/
def regAll (part : Nat) (len : Nat) : Region := { part, ctxid := 1, base := 0, len, writable := true, backed := [] }
/-- The device of a call with the given regions, its context's tables empty. -/
def dmapS (regions : List Region) : State := { callS (callG 2 []) with mem := [], regions }
def dmapHolds (regions : List Region) : Bool := (dmapS regions).spaceHolds ((dmapS regions).whoGroup (callG 2 [])) 65536
theorem witness_CallEvents_dmap_exhausted :
    (dmapS [regAll 0 (2 ^ 56 - 65536)]).partBytes 0 < (dmapS [regAll 0 (2 ^ 56 - 65536)]).mappedBytes 0 + 65536 ∧
    dmapHolds [regAll 0 (2 ^ 56), { regAll 0 (2 ^ 56) with base := 0xFF00000000000000 }] = false ∧
    (dmapS []).mappedBytes 0 + 65536 ≤ (dmapS []).partBytes 0 ∧ dmapHolds [] = true ∧
    (dmapS []).callOf 0 0 = some (256, callG 2 [], 2) ∧
    (dmapS []).spaceFree ((dmapS []).whoGroup (callG 2 [])) 0x40000000 65536 = true ∧
    canonical (0xFFFFFFFFFFFF0000 : DWord) = true ∧ canonical (0xFFFFFFFFFFFF0000 + 65535 : DWord) = true ∧ (dmapS []).regions = [] := by
  decide +kernel
/-- Two lanes of a forwarded call, whose first lane's message the queue has not taken; its reply, and where the body goes. -/
def fwg : Group := { callG 0x800 [] with trap := { cause := 16, w0 := 0x800, w1 := 5, w2 := 0, lanes := 5, unfin := 0 } }
def aw (lane : Nat) : Await := { part := 0, seq := 1, linear := 0, gid := 0, op := none, lane, body := [], sent := false, reply := none }
theorem witness_CallEvents_forwarded :
    (callS fwg).callOf 0 0 = some (256, fwg, 0x800) ∧
    ({ callS fwg with awaits := [(9, aw 0)] } : State).awaits.find? (fun e => ({ callS fwg with awaits := [(9, aw 0)] } : State).awaitFor e.2 fwg none) =
      some (9, aw 0) ∧
    (Mask.toLanes fwg.trap.w1).find? (fun l => (aw 0).lane < l) = some 2 ∧ (Mask.toLanes fwg.trap.w1).find? (fun l => (aw 2).lane < l) = none ∧
    aget? 0 (ps mg).cores = some k0 ∧ writes ((ps mg).ctx0Write ((ps mg).core 0).part 0x50000 (List.replicate 40 0)) = true ∧
    (callS fwg).group? (en 1 true).key = some fwg ∧ (en 1 true).kind = 1 := by
  decide +kernel
/-- A mapped region of the context that DUNMAP unmaps. -/
theorem witness_CallEvents_dunmap : (let s : State :=
      { callS (callG 3 []) with regions := [{ part := 0, ctxid := 1, base := 0x40000000, len := 65536, writable := true, backed := [] }] }
    s.dmapped 0 1 0x40000000 65536 = true) := by
  decide +kernel
theorem witness_CallEvents_drain :
    (let g := { callG 1 [] with trapVpc := 0 }
     ((({ ps g with cores := aput 0 k0 (ps g).cores } : State).drainMoor 0).core 0).mq.length ≠ 0) := by
  decide +kernel

/-! ## Witnesses for links, the host, resets and management -/

def rqS (kind : ReqKind) : State := { ts tg with requests := [(9, rq kind)], tick := 100000 }
theorem witness_LinkAndPortEvents : (∀ kind ∈ [ReqKind.load, .atomic, .posted, .tsend], aget? 9 (rqS kind).requests = some (rq kind)) ∧
    (rq .posted).acts = [] ∧ (let x : RedAct := { op := .add, ty := .nat, off := 0, data := [], poison := false, blk := false, entry := ent true, asid := 1, sva := 0 }
      { rq .posted with acts := [x] }.acts ≠ []) ∧
    (¬ (rqS .load).tick - (rq .load).issued < BitVec.ofNat 64 (1000 * ((rqS .load).part ((rqS .load).core 0).part).linktmo)) ∧
    (rq .load).chip = none ∧ (∀ port ∈ [0, 15], ({ ts tg with portsUp := 0xFFFF } : State).portsUp.getLsbD port = true) ∧
    ({ ts tg with hostUp := false } : State).hostUp = false := by
  decide +kernel
/-- A request of chip 2 for context 1 of this chip whose page admits peers: the leaf of the placed tables with RA set. -/
def rq2 (kind : PeerKind) : PeerReq := { chip := 2, tag := 4, ctxid := 1, va := 0x200000, size := 4, kind, poison := false }
def raS : State := (ps mg).putWords [(placedRoot + 8192, gigLeaf 0 true + 2)]
/-- What an inbound access reaches. -/
def reachesPa (x : Except Nat Nat) : Option Nat := match x with
  | .ok pa => some pa
  | .error _ => none
def win : Window :=
  { enabled := true, ctxid := 1, base := 0x200000, size := 1, endpoint := 4, psrc := 0, anyReq := false, reqId := 7, status := 0, faults := 0,
    refused := 0, performed := 0, high := 0 }
theorem witness_PeerEvents :
    (let x : Kept := { chip := 2, ctx := 4, tag := 4, status := 0, data := [], since := 0 }
     ({ ts tg with kept := [x] } : State).keptOf 2 4 = some x ∧ x.ctx = 4) ∧
    (ps mg).keptOf 2 4 = none ∧ reachesPa ((ps mg).inbound 1 0x200000 false) = none ∧ reachesPa (raS.inbound 1 0x200000 true) = some 0x200000 ∧
    reachesPa (raS.inbound 1 (win.base + BitVec.ofNat 64 4092) false) = some 0x200FFC ∧
    ({ raS with windows := [(63, win)] } : State).window 63 = win ∧ win.takes 7 4095 = true ∧ win.takes 7 4096 = false ∧
    aget? 63 ({ raS with windows := [(63, win)] } : State).windows = some win ∧ aget? 63 (raS).windows = none ∧ win.enabled = true ∧
    (let x : Kept := { chip := 2, ctx := 4, tag := 4, status := 0, data := [], since := 0 }
     let s : State := { ts tg with kept := [x], tick := 2000000 }
     s.kept.find? (fun y => y.chip == 2 && y.ctx == 4) = some x ∧ ¬ s.tick - x.since < 2000000) ∧
    win.takes 8 0 = false ∧ win.psrc = 0 := by
  decide +kernel
def bell : Doorbell := { token := 5, ctxid := 1, status := [], fails := [] }
theorem witness_HostEvents :
    (ps mg).partOfMem 0x200000 = some 0 ∧ (ps mg).secureFrame 0x200000 = false ∧ ((ps mg).part 0).resetting = false ∧
    ({ ps mg with flash := { (ps mg).flash with manifest := { (ps mg).flash.manifest with secure := [(0x200000, 4096)] } } } : State).secureFrame
      0x200FFF = true ∧
    aget? 3 ({ ps mg with doorbells := [(3, bell)] } : State).doorbells = some bell ∧ 0 < (ps mg).parts.length ∧
    (ps mg).physPoison 0x200000 64 = false ∧ (ps mg).hostUp = true ∧ (ps mg).hostCxl = true := by
  decide +kernel
theorem witness_HostEvents_submit :
    (let s : State := { ps mg with hostUp := true, parts := amod 0 (fun (p : Partition) => { p with sqsize := 16, sqtail := 1 }) (ps mg).parts }
     s.entryWaits 0 = true ∧ s.hostUp = true ∧ (15#32).toNat < (s.part 0).sqsize.toNat) := by
  decide +kernel
theorem witness_ResetEvents : 0 < (ps mg).parts.length ∧
    (let s : State := { ps mg with tick := 5, parts := amod 0 (fun (p : Partition) => { p with wdDeadline := 5 }) (ps mg).parts }
     (s.part 0).resetting = false ∧ ¬ s.tick < (s.part 0).wdDeadline) ∧
    ((ps mg).core 0).enabled = true ∧ ((ps mg).core 0).fenced = false ∧ ((ps mg).healthy 0).head? = some 0 := by
  decide +kernel
/-- The placed context as an orphan: FLAGS bit 3. -/
def orphanS : State :=
  State.writePhysN { ps mg with tick := 0xFFFFFFFFFFFFFFFF } (State.reset.placedBase + 128 * placedCtx + 12) [9] false
/-- The same with an access of the context in flight. KILL looks at no more of a descriptor than its partition. -/
def outS : State := { orphanS with requests := [(9, rq .load)] }
def od : Desc := descOf 0 []
theorem witness_ResetEvents_orphan : (orphanS.partCtxs 0).filter (fun x => x.2.orphaned) ≠ [] ∧
    (outS.partCtxs 0).filter (fun x => x.2.orphaned) ≠ [] ∧ (orphanS.rawDesc 0 1).map Desc.part = some od.part := by
  decide +kernel
theorem witness_ResetEvents_grace : (orphanS.killStop 1 od).killTags 1 od = [] ∧ (outS.killStop 1 od).killTags 1 od = [9] ∧
    (orphanS.healthy 0).head? = some 0 ∧ (outS.healthy 0).head? = some 0 ∧
    (orphanS.part 0).grace.toNat * 1000000000 ≤ (orphanS.tick - orphanS.portDownTick).toNat := by
  decide +kernel
def newCtx : ContextReq :=
  { core := 0, ctxid := 2, ptroot := 0x1000, asid := 2, part := 0, secure := false, prioLim := 7, ballast := 0, bsize := 0, eptab := 0,
    gridLim := 16, token := 1 }
theorem witness_ManagementEvents :
    State.reset.managementUp = true ∧ (∀ w ∈ [600, 2000], 600 ≤ w ∧ w ≤ 2000) ∧ (∀ w ∈ [599, 2001], ¬ (600 ≤ w ∧ w ≤ 2000)) ∧
    min 9999 2250 = (ps mg).clockMHz ∧ min 2249 2250 ≠ (ps mg).clockMHz ∧
    (ps mg).contextBad { newCtx with ctxid := 1024 } = true ∧
    ({ ps mg with debugArmed := [(0, none)] } : State).debugArmed.find? (fun e => e.2 == (none : Option Nat) && decide (e.1 ≤ (ps mg).tick)) =
      some (0, none) ∧
    (let m := { State.reset.flash.manifest with debugFlags := 1 }
     m.debugFlags.getLsbD 0 = true) := by
  decide +kernel
theorem witness_ManagementEvents_trace :
    (let k := { k0 with traceBuf := [(1, [0])] }
     let s : State := { ps mg with hostUp := true, cores := aput 0 k (ps mg).cores,
                                   parts := amod 0 (fun (p : Partition) => { p with trsize := 64 }) (ps mg).parts }
     aget? 0 s.cores = some k ∧ k.traceBuf ≠ [] ∧ (s.part k.part).trsize ≠ 0 ∧ s.hostUp = true) := by
  decide +kernel
/-- A device whose one core, not enabled, stands beside context 2, which is free and can be written. -/
def oneCore : State := { ps mg with cores := [(0, { k0 with enabled := false })] }
theorem witness_ManagementEvents_create :
    oneCore.contextBad newCtx = false ∧
    writes (oneCore.ctx0Write (oneCore.core 0).part (oneCore.descAddr 0 2) (contextBytes newCtx)) = true := by
  decide +kernel

/-! ## Witnesses for the traps, waits and laws of the wider statements -/

/-- A word issues in a state in which the group is that of `cur`, in slot 0. -/
theorem issues_at {s : State} {i : Instr} {g : Group} {m : Mask} (hg : s.group? s.cur.key = some g) (h0 : s.cur.slot1 = false)
    (hd : g.divided = false) (h : okWord g m i = true) : Issues i s g m := issues_in hg h0 hd h
/-- The placed context's device is calm for every group of core 0 that awaits nothing. -/
theorem calm_of {g : Group} (h : g.core = 0) (hp : AwaitsNone g) : Calm (ps g) g := by
  have c := calm_ps
  exact ⟨by rw [h]; exact c.1, by rw [h]; exact c.2.1, by rw [h]; exact c.2.2.1, c.2.2.2.1, hp⟩
/-- Two lanes whose addresses are a and b. -/
def mg2 (a b : Word) : Group := { mg with mask0 := 3, live := 3, v := [(64, a), (65, b), (192, 3)] }
/-- The trap of two lanes of which the second is at an unmapped page. -/
def faultT (wr : Bool) : Trap := { cause := 5, w0 := if wr then 0x212 else 0x12, w1 := 0x40000000, w2 := 0, lanes := 2, unfin := 2 }
theorem witness_OperandTraps_fault : (let g := mg2 0x200000 0x40000000
    let w := (ps g).whoGroup g
    let addr := genAddr g mm
    let kind (acc : Access) (l : Nat) : Option Nat := faultKind (ps g) w acc (addr l)
    let watch (rd wr : Bool) (l : Nat) : Option Nat := (ps g).watchHit 0 w.asid l (addr l) 4 rd wr
    Calm (ps g) g ∧ g.consume 4 3 [(mm.a.toNat, 2, mm.au)] = .ok () ∧ AlignedAt 3 4 (fun l => ((addr l).toNat : Int)) ∧
    (∀ i ∈ [Instr.ld mm, .st mm], Issues i (ps g) g 3) ∧ StopsAt (faultT false) 1 3 false false addr (kind .read) (watch true false) ∧
    StopsAt (faultT true) 1 3 false true addr (kind .write) (watch false true) ∧
    (∀ acc ∈ [Access.read, .write], Reaches (ps g) w acc true 1 addr 4 (fun _ => ent true) (fun _ => 0x200000))) := by
  refine ⟨calm_of rfl ⟨rfl, rfl⟩, ok_of (by decide +kernel), by unfold AlignedAt; decide +kernel, issuesP rfl (by decide +kernel),
    by unfold StopsAt; decide +kernel, by unfold StopsAt; decide +kernel, ?_⟩
  intro acc h
  simp only [List.mem_cons, List.not_mem_nil, or_false] at h
  rcases h with rfl | rfl <;> exact reaches_one (by decide +kernel) (by decide +kernel) (by decide +kernel)
/-- The same lanes at mapped addresses, with a comparator armed for reads and writes at the second's. -/
def watchS (g : Group) : State :=
  { ps g with cores := aput 0 { k0 with comps := [(3, { start := 0x200100, len := 4, lanes := 2, ctl := 0x33, asid := 1 })] } (ps g).cores }
theorem witness_OperandTraps_watch : (let g := mg2 0x200000 0x200100
    let s := watchS g
    let w := s.whoGroup g
    StopsAt { cause := 7, w0 := 0x13, w1 := 0x200100, w2 := 0, lanes := 2, unfin := 3 } 0 3 false false (genAddr g mm)
      (fun l => faultKind s w .read (genAddr g mm l)) (fun l => s.watchHit 0 w.asid l (genAddr g mm l) 4 true false) ∧
    (s.core 0).perm.length ≤ 400 ∧ (s.core 0).deferred = [] ∧ s.requests = [] ∧ Issues (.ld mm) s g 3) :=
  ⟨by unfold StopsAt; decide +kernel, by decide +kernel, by decide +kernel, by decide +kernel,
    issues_at (by decide +kernel) rfl rfl (by decide +kernel)⟩
/-- The second lane's sector failed on a link, with code 33. -/
def remG : Group := { mg2 0x200000 0x200100 with
  pend0 := some { waiting := [], sent := [], landed := [], fails := [(0x200100 / 64, 33)] } }
theorem witness_OperandTraps_remote : remG.pendOf false = some { waiting := [], sent := [], landed := [], fails := [(0x200100 / 64, 33)] } ∧
    aget? (va57 (genAddr remG mm 1) / 64) [(0x200100 / 64, 33)] = some 33 ∧ ((ps remG).core 0).comps = [] ∧
    Reaches (ps remG) ((ps remG).whoGroup remG) .read true 1 (genAddr remG mm) 4 (fun _ => ent true) (fun _ => 0x200000) ∧
    Issues (.ld mm) (ps remG) remG 3 ∧ maskOf (fun l => (3 : Mask).getLsbD l && (aget? (va57 (genAddr remG mm l) / 64) [(0x200100 / 64, 33)]).isSome) = 2 :=
  ⟨rfl, by decide +kernel, by decide +kernel, reaches_one (by decide +kernel) (by decide +kernel) (by decide +kernel),
    issuesP rfl (by simp only [List.all_cons, List.all_nil, Bool.and_true]; decide +kernel) _ (List.mem_singleton.2 rfl), by decide +kernel⟩
/-- One lane inside the local area and one beyond the scratchpad. -/
def outG : Group := { tg with mask0 := 3, live := 3, v := [(64, 8), (65, 0x10000), (192, 3)] }
theorem witness_OperandTraps_scratchpad : (let out (l : Nat) : Bool := scrAddr outG mm l < 0 || (4096 : Int) < scrAddr outG mm l + 4
    let stops (wr : Bool) : Prop := StopsAt { cause := 5, w0 := if wr then 0x216 else 0x16, w1 := 0x10000, w2 := 0, lanes := 2, unfin := 2 } 1 3
      false wr (fun l => BitVec.ofInt 64 (scrAddr outG mm l)) (fun l => if out l then some 6 else none) (fun _ => none)
    outG.blk = some 0 ∧ outG.consume 4 3 [(mm.a.toNat, 1, mm.au)] = .ok () ∧ AlignedAt 3 4 (scrAddr outG mm) ∧
    (∀ l, l < 32 → (3 : Mask).getLsbD l = true → out l = true ∨ (0 ≤ scrAddr outG mm l ∧ scrAddr outG mm l + 4 ≤ 4096)) ∧
    stops false ∧ stops true ∧ ∀ i ∈ [Instr.lds mm, .sts mm], Issues i (ts outG) outG 3) :=
  ⟨rfl, ok_of (by decide +kernel), by unfold AlignedAt; decide +kernel, by decide +kernel, by unfold StopsAt; decide +kernel,
    by unfold StopsAt; decide +kernel, issuesU_all rfl (by decide +kernel)⟩
/-- Two writes of context 1 have failed. -/
def failed2 : Deferred := { count := 2, addr := 0x1234, kind := 1, age := 0 }
def defS : State := { ps mg with cores := aput 0 { k0 with deferred := [(1, failed2)] } (ps mg).cores }
theorem witness_OperandTraps_deferred : aget? (defS.whoGroup mg).ctxid.toNat (defS.core 0).deferred = some failed2 ∧ (defS.core 0).l1 = [] ∧
    defS.requests = [] ∧ xf (fr 15) 0 2 = 3 ∧ xbit (fr 15) 3 = true ∧ Issues (.fence (fr 15)) defS mg 1 :=
  ⟨by decide +kernel, by decide +kernel, by decide +kernel, by decide +kernel, by decide +kernel, issues_at (by decide +kernel) rfl rfl (by decide +kernel)⟩
/-- Transfers by a poisoned register, the target's low and the condition's, and to a target that is no multiple of 8. -/
theorem witness_UniformWords_traps :
    (let g := { tg with sPoison := 0xC }
     g.poisonS 3 = true ∧ Issues (.bra (bra 1 3)) (ts g) g tm ∧ g.poisonS rr.a.toNat = true ∧
       ∀ i ∈ [Instr.brx rr, .ret rr, .callx rr], Issues i (ts g) g tm) ∧
    (let g := { tg with s := [(2, 4)] }
     g.poisonS 2 = false ∧ g.poisonS 3 = false ∧ (g.getS64 rr.a.toNat).toNat % 8 ≠ 0 ∧
       ∀ i ∈ [Instr.brx rr, .ret rr, .callx rr], Issues i (ts g) g tm) :=
  ⟨⟨by decide +kernel, issues_of_ok rfl (by decide +kernel), by decide +kernel, issuesU_all rfl (by decide +kernel)⟩,
    by decide +kernel, by decide +kernel, by decide +kernel, issuesU_all rfl (by decide +kernel)⟩
/-- Groups of the placed context with eight entries on chip, with one more in the stack area, and with 64. -/
def deep (spill depth : Nat) : Group := { mg with stack := List.replicate 8 (ie 0 0), depth, spill }
/-- What a check answers. -/
def opt {α : Type} (x : Res α) : Option α := match x with
  | .ok a => some a
  | .error _ => none
theorem witness_IfWords_spill :
    ((ps (deep 0 8)).stackArea (deep 0 8)).isSome = true ∧ (deep 0 8).stack.getLast? = some (ie 0 0) ∧ (deep 0 8).isSup = false ∧
    (opt ((ps (deep 0 8)).push (deep 0 8) (ie 8 2) 1)).isSome = true ∧ (opt ((ps (deep 1 9)).pop (deep 1 9) 1)).isSome = true ∧
    64 ≤ (deep 56 64).depth ∧ isOk ((ps (deep 56 64)).push (deep 56 64) (ie 8 2) 1) = false := by
  decide +kernel
/-- ELSE and ENDIF with an empty stack, with a loop on top, with a divided IF on top, and where no lane of the entry lives. -/
theorem witness_IfWords_traps : (∀ i ∈ [Instr.elseW bb, .endif], Issues i (ts tg) tg tm) ∧ tg.depth = 0 ∧
    (∀ i ∈ [Instr.elseW bb, .endif], Issues i (ts lg) lg 1) ∧ le.kind ≠ 1 ∧
    (let e : StackEntry := { ie 0x100000 0 with kf := 0x101 }
     let g := { tg with stack := [e], depth := 1 }
     Issues .endif (ts g) g tm ∧ e.kind = 1 ∧ e.epc = g.pc0 ∧ e.split = true ∧ g.inEntry = false) ∧
    (let e : StackEntry := { ie 0x100000 0 with rm := 2 }
     let g := { tg with mask0 := 1, live := 1, stack := [e, ie 0 1], depth := 2 }
     Issues .endif (ts g) g 1 ∧ isOk ((ts g).pop g g.mask0) = true ∧ e.rm &&& g.live = 0 ∧
       isOk ((ts g).resolveLoop 65 { g with stack := [ie 0 1], depth := 1, mask0 := 0 } 1) = true) :=
  ⟨issuesU_all rfl (by decide +kernel), rfl, issuesU_all rfl (by decide +kernel), by decide,
    ⟨issues_of_ok rfl (by decide +kernel), by decide +kernel⟩, issues_of_ok rfl (by decide +kernel), by decide +kernel⟩
/-- BREAK and CONT of every lane, of a loop with another ENDLOOP, with no entry; ENDLOOP of another loop. -/
theorem witness_LoopWords_resolve :
    (let g := { kg with mask0 := 1, live := 1, p := [(0, 1)], stack := [ie 0 2, le2] }
     (∀ i ∈ [Instr.breakW bb, .cont bb], Issues i (ts g) g 1) ∧ g.mask0 &&& ~~~(brCond bb g) = 0 ∧ le2.epc = brTarget bb g.pc0 ∧
       isOk ((ts g).resolveLoop 65 { g with stack := [ie 0 2, le2], mask0 := 0 } 1) = true) ∧
    (∀ i ∈ [Instr.endloop bb, .breakW bb, .cont bb], Issues i (ts tg) tg tm) ∧
    (let g := { kg with stack := [ie 0 0, { le2 with epc := 0 }] }
     (∀ i ∈ [Instr.breakW bb, .cont bb], Issues i (ts g) g tm) ∧ ({ le2 with epc := 0 } : StackEntry).epc ≠ brTarget bb g.pc0) ∧
    (Issues (.endloop bb) (ts kg) kg tm ∧ (ie 0 0).kind ≠ 2) ∧
    Issues (.loopW bb) (ps (deep 0 8)) (deep 0 8) 1 :=
  ⟨⟨issuesU_all rfl (by decide +kernel), by decide +kernel⟩, issuesU_all rfl (by decide +kernel),
    ⟨issuesU_all rfl (by decide +kernel), by decide +kernel⟩, ⟨issues_of_ok rfl (by decide +kernel), by decide⟩,
    issuesP rfl (by simp only [List.all_cons, List.all_nil, Bool.and_true]; decide +kernel) _ (List.mem_singleton.2 rfl)⟩
/-- EXIT of slot 1's last lane. -/
def e1g : Group := { tg with run1 := true, mask0 := 1, mask1 := 2, live := 3, pc1 := 0x100000, stack := [{ ie 0 0 with kf := 0x101 }], depth := 1 }
def e1s : State := { ts e1g with cur := { key := 256, slot1 := true } }
theorem witness_ExitWord_slot1 : Issues (.exit rr) e1s e1g 2 ∧ e1g.live &&& ~~~(2 : Mask) ≠ 0 ∧ e1g.mask true &&& ~~~(2 : Mask) = 0 ∧
    e1g.spill = 0 ∧ (ie 0 0).split = false ∧ isOk ((ts lg).pop lg 1) = true :=
  ⟨⟨rfl, fun _ => by decide +kernel, fun h => (nomatch h), by decide +kernel, by decide +kernel⟩, by decide, by decide +kernel, rfl, rfl,
    by decide +kernel⟩
/-- A core whose L1 holds the four bytes at 0x200000 as the core has stored them. -/
def ownS : State :=
  { ps mg with cores := aput 0 { k0 with l1 := (List.range 4).map (fun k => (lkey 1 0x200000 + k, (9, true))) } (ps mg).cores }
theorem witness_GenericLoads_own : Settled ownS 0 ∧ NoStash ownS ∧ AwaitsNone mg ∧ (ownS.core 0).comps = [] ∧ ASorted (ownS.core 0).l1 ∧
    (linesOf (ownS.core 0).l1).length ≤ 1024 ∧ (ownS.core 0).ro.length ≤ 256 ∧ (∀ r ∈ [mm, mt],
      Issues (.ld r) ownS mg 1 ∧ (r.ord ≠ 1 ∨ r.sc.toNat < 2) ∧
      Reaches ownS (ownS.whoGroup mg) .read true 1 (genAddr mg r) 4 (fun _ => ent true) (fun _ => 0x200000)) ∧ mt.cp = 3 ∧ mm.cp ≠ 3 ∧
    (∀ j, j < 4 → (aget? (lkey (ownS.whoGroup mg).asid (va57 (genAddr mg mm 0)) + j) (ownS.core 0).l1).isSome = true) := by
  refine ⟨⟨by decide +kernel, by decide +kernel, by decide +kernel, by decide +kernel, ⟨ownS.core 0, by decide +kernel⟩⟩, by unfold NoStash; decide +kernel,
    ⟨rfl, rfl⟩, by decide +kernel, by unfold ASorted; decide +kernel, by decide +kernel, by decide +kernel, ?_, by decide, by decide,
    by decide +kernel⟩
  intro r hr
  simp only [List.mem_cons, List.not_mem_nil, or_false] at hr
  rcases hr with rfl | rfl <;> exact ⟨issues_at (by decide +kernel) rfl rfl (by decide +kernel), by decide,
    reaches_one (by decide +kernel) (by decide +kernel) (by decide +kernel)⟩
/-- The placed block with a stash of two granules, of which the first is mapped, writable or not, and a sector perhaps filled. -/
def stb (w : Bool) (filled : List (Nat × (Nat × Nat))) : Block :=
  { placedBlock with stashSize := 8192, stash := [(0, { page := 0x200000, w })], stashFilled := filled }
/-- A group whose lane's local address is x, in the placed context. -/
def xlg (x : Word) : Group := { mg with v := [(64, x), (192, 3)] }
def stS (b : Block) (x : Word) : State := { ps (xlg x) with blocks := [(0, b)] }
/-- The entry that a walk finds. -/
def found (x : Except Nat PermEntry) : Option PermEntry := match x with
  | .ok e => some e
  | .error _ => none
/-- The place of a scratchpad access. -/
def place (x : Except Nat ScrPlace) : Option ScrPlace := match x with
  | .ok p => some p
  | .error _ => none
theorem place_ok {x : Except Nat ScrPlace} {p : ScrPlace} (h : place x = some p) : x = .ok p := by
  cases x with
  | ok q => exact congrArg _ (Option.some.inj h)
  | error k => cases h
theorem witness_Local_stash : (∀ wr,
      (stS (stb true []) 4096).scrCheck ((stS (stb true []) 4096).whoGroup (xlg 4096)) (some (stb true [])) wr (scrAddr (xlg 4096) mm 0)
        (accSize mm) = .ok (.stash 0 0x200000 (some (ent true)))) ∧
    EmptyCaches ((stS (stb true []) 4096).core 0) ∧ ((stS (stb true []) 4096).core 0).comps = [] ∧ (stb true []).core = 0 ∧
    (xlg 4096).consume 4 1 [(mm.a.toNat, 1, mm.au)] = .ok () ∧ AlignedAt 1 4 (scrAddr (xlg 4096) mm) ∧
    ∀ i ∈ [Instr.lds mm, .sts mm], Issues i (stS (stb true []) 4096) (xlg 4096) 1 := by
  refine ⟨fun wr => ?_, by unfold EmptyCaches; decide +kernel, by decide +kernel, rfl, ok_of (by decide +kernel),
    by unfold AlignedAt; decide +kernel, ?_⟩
  · cases wr <;> exact place_ok (by decide +kernel)
  · intro i hi
    exact issues_at (by decide +kernel) rfl rfl (List.all_eq_true.1 (by decide +kernel : [Instr.lds mm, .sts mm].all (okWord (xlg 4096) 1) = true) i hi)
/-- The clauses of a scratchpad check: an unmapped granule, one without W, a filled sector, a page that may not be read, one of host memory. -/
theorem witness_LocalLoads_check : aget? (4096 / 4096) (stb true []).stash = none ∧ aget? 0 (stb false []).stash = some { page := 0x200000, w := false } ∧
    aget? (64 / 64) (stb true [(1, (0x200040, 30))]).stashFilled = some (0x200040, 30) ∧
    (found ((ps mg).permLookup ((ps mg).whoGroup mg) (canon57 0x40000000))).isNone = true ∧
    (found ((ps mg).permLookup ((ps mg).whoGroup mg) (canon57 0x200000))).isSome = true ∧
    (found ((hostGig (ps mg)).permLookup ((ps mg).whoGroup mg) (canon57 0x200000))).any (fun e => decide (hbmEnd ≤ e.pa)) = true := by
  decide +kernel
/-- A core whose L1 holds a dirty byte of a page in device memory, and one with a clean byte beside it. -/
def dirtyK : Core := { k0 with perm := [ent true], l1 := [(lkey 1 0x200000, (9, true)), (lkey 1 0x200001, (8, false))] }
theorem witness_FenceWord_publish : ASorted dirtyK.l1 ∧ (∀ e ∈ dirtyK.perm, 6 ≤ e.bits) ∧
    aget? (lkey 1 0x200000) dirtyK.l1 = some (9, true) ∧
    permFind dirtyK.perm (lkey 1 0x200000 / 2 ^ 57) (lkey 1 0x200000 % 2 ^ 57) = some (ent true) ∧ (ent true).stripe = none ∧ (ent true).pa < hbmEnd ∧
    (∀ q ∈ dirtyK.l1, q.2.2 = true → q.1 = lkey 1 0x200000) :=
  ⟨by unfold ASorted; decide +kernel, by decide +kernel, by decide +kernel, by decide +kernel, by decide, by decide, by decide +kernel⟩
/-- A RED of core 0 that waits for its sector, a host line that is not the device's own, a posted write, a failed one. -/
def red9 : Request := { rq .load with
  acts := [{ op := .add, ty := .nat, off := 0, data := [], poison := false, blk := false, entry := ent true, asid := 1, sva := 0 }] }
def outW (r : Request) : State := { ps mg with requests := [(9, r)] }
theorem witness_FenceWord_waits : (outW red9).redsOut 0 = true ∧ (outW (rq .own)).redsOut 0 = false ∧
    ((outW (rq .own)).publish 0).ownsOut 0 = true ∧ ((outW (rq .posted)).publish 0).ownsOut 0 = false ∧
    ((outW (rq .posted)).publish 0).postedOut 0 1 = true ∧ (defS.publish 0).postedOut 0 1 = false ∧
    aget? 1 ((defS.publish 0).core 0).deferred = some failed2 ∧ (defS.publish 0).group? 256 = some mg ∧
    (∀ x ∈ ([14, 10, 6, 2, 15, 13] : List (BitVec 9)), okWord mg 1 (.fence (fr x)) = true) := by
  decide +kernel

/-! ### Engines, barriers, launch, tethers, calls -/

/-- A word of the copy engines with a barrier, and without. -/
def ex (x : BitVec 9) : RWord := { rr with c := 8, xop := x }
/-- The placed block with four barriers. -/
def fourS (g : Group) : State := { ts g with blocks := [(0, { placedBlock with ntbar := 4 })] }
theorem witness_EngineWords_poison : (let g := { tg with sPoison := 2 ^ 4 + 2 ^ 2 }
    g.poisonS 4 = true ∧ g.poisonS 2 = true ∧ (∀ i ∈ [Instr.cpy rr, .cpyf rr, .cpyt rr, .gath rr, .scat rr], Issues i (ts g) g tm)) :=
  ⟨by decide +kernel, by decide +kernel, issuesU_all rfl (by decide +kernel)⟩
/-- CPY: the barrier that S8 names is not allotted; a non-canonical destination, source; a range beyond the local area, of each side. -/
theorem witness_EngineWords_linear :
    (∀ i ∈ [Instr.cpy (ex 0x100), .cpyf (ex 0x100), .cpy (ex 0x40), .cpy (ex 0x10), .cpy (ex 0)], okWord cg tm i = true) ∧ xbit (ex 0x100) 8 = true ∧
    (4 : Nat) ≤ ({ cg with s := [(8, 4)] }.getS 8).toNat ∧ canonical (0x0100000000000000 : DWord) = false ∧
    canonical (0x00FFFFFFFFFFFFFF + 63 : DWord) = false ∧ xf (ex 0x40) 6 2 = 1 ∧ xf (ex 0x10) 4 2 = 1 ∧
    placedBlock.localSize < (4096 - 63) + 64 ∧ (4096 - 64) + 64 ≤ placedBlock.localSize := by
  decide +kernel
/-- What a word's checks answer: nothing where they pass, else the first detail word of the trap. -/
def refusal {α : Type} (x : Res α) : Option Word := match x with
  | .ok _ => none
  | .error (.trap t) => some t.w0
  | .error _ => none
/-- CPYT with the descriptor l, over that of ttg, and the destination d; GATH and SCAT likewise. -/
def tileG (l : List (Nat × Word)) (d : Word) : Group := { ttg with s := l.foldl (fun t e => aput e.1 e.2 t) (aput 4 d ttg.s) }
def gathG (l : List (Nat × Word)) : Group := { gg with s := l.foldl (fun t e => aput e.1 e.2 t) gg.s }
/-- Each check refuses some operands that pass those before it: the descriptor, the destination, the barrier, the base, the local area. -/
theorem witness_EngineWords_tile :
    [refusal (tileOp tr (ts ttg) (tileG [(18, 0)] 0) tm), refusal (tileOp tr (ts ttg) (tileG [] 8) tm),
      refusal (tileOp { tr with c := 6, xop := 0x100 } (ts ttg) (tileG [(6, 16)] 0) tm),
      refusal (tileOp tr (ts ttg) (tileG [(17, 0x01000000)] 0) tm), refusal (tileOp tr (ts ttg) (tileG [] 4096) tm),
      refusal (tileOp tr (ts ttg) (tileG [] 4080) tm)] =
      [some 0x10001, some 0x10002, some 0x101, some 1, some 0x206, none] ∧
    [refusal (gatherOp 4 gr (ts gg) (gathG [(19, 8)]) tm), refusal (gatherOp 4 { gr with c := 6, xop := 0x100 } (ts gg) (gathG [(6, 16)]) tm),
      refusal (gatherOp 4 gr (ts gg) (gathG [(17, 0x01000000)]) tm), refusal (gatherOp 5 gr (ts gg) (gathG [(20, 4096)]) tm),
      refusal (gatherOp 4 gr (ts gg) (gathG [(22, 4096)]) tm), refusal (gatherOp 5 gr (ts gg) (gathG [(20, 4092), (22, 4080)]) tm)] =
      [some 0x20011, some 0x101, some 1, some 6, some 0x206, none] := by
  decide +kernel
/-- A core with an operation of the group that has no slot and stands before later ones: resumed, and failed without surfacing. -/
def full (state : Nat) : State := { ps mg with cores := aput 0 { k0 with ops := [{ op5 with state }] } (ps mg).cores }
theorem witness_EngineWords_waits : (full 1).slotFor 0 256 false = none ∧ ((full 1).opsOf 0 256 false).find? (fun x => x.state == 3) = none ∧
    (((full 3).opsOf 0 256 false).find? (fun x => x.state == 3)).isSome = true ∧ (aget? 0 (full 1).cores).isSome = true := by
  decide +kernel
/-- WAITC above its limit; and one whose class has a failure that is reported. -/
theorem witness_EngineWords_waitc : (5 : Nat) < wg.count false ∧ wg.count false ≤ 6 ∧
    (let s : State := { ps mg with cores := aput 0 { k0 with ops := [{ op5 with state := 3, reported := true }] } (ps mg).cores }
     ((s.opsOf 0 256 false).find? (fun o => o.state == 3 && o.reported)).isSome = true) := by
  decide +kernel
/-- BAR and TBARR while a RED is out; the six reasons of R181: barrier 15 of a block with four, one that is invalid, in error, without an
arrival pending, valid, and counts and sums out of range. -/
theorem witness_BarrierWords_traps : (tbs 1).redsOut 0 = false ∧ ({ tbs 1 with requests := [(9, red9)] } : State).redsOut 0 = true ∧
    (4 : Nat) ≤ tbNum (br 30) (bg 1) ∧ (tbb.tb 1).v = false ∧
    (let t (x : Tb) : Tb := ({ placedBlock with tbars := [(0, x.word)] } : Block).tb 0
     (t { tb0 with er := true }).er = true ∧ (t { tb0 with pend := 0 }).pend = 0 ∧ (t tb0).v = true ∧
       txOk ((t { tb0 with tx := 2 ^ 31 - 1 }).tx + 1) = false) ∧ (4095 : Nat) < (4096 : Word).toNat := by
  decide +kernel
/-- A failed operation on barrier 0; a group that a barrier has woken with reason 3. -/
theorem witness_BarrierWords_surface :
    (let s : State := { tbs 1 with cores := aput 0 { k0 with ops := [{ op5 with state := 3, tb := some 0 }] } (tbs 1).cores }
     s.tbFailure (bg 1) 0 = some { op5 with state := 3, tb := some 0 } ∧ s.group? 256 = some (bg 1)) ∧
    (tbs 1).tbFailure (tbg (.tbwoken 3)) 0 = none ∧ (tbg (.tbwoken 3)).wait = .tbwoken 3 := by
  decide +kernel
/-- LAUNCH at depth 10, by a poisoned register, behind a RED, and behind a line that is not the device's own. -/
theorem witness_LaunchWord_traps : ({ placedGrid with depth := 10 } : Grid).depth = 10 ∧ { mg with sPoison := 4 }.poisonS 2 = true ∧
    (outW red9).redsOut 0 = true ∧ (outW (rq .own)).redsOut 0 = false ∧ ((outW (rq .own)).publish 0).ownsOut 0 = true ∧
    okWord mg 1 (.launch rr) = true := by
  decide +kernel
/-- REGACQ above the full allotment, REGREL below the prologue's, GANGBAR without a gang, CWAIT of a number that no child has. -/
theorem witness_LaunchClassWords_traps :
    8 * ((ts tg).roleOf placedBlock 0).fgran < regTarget (br 126) ((ts tg).roleOf placedBlock 0).fgran ∧
    regTarget (br 2) ((ts tg).roleOf placedBlock 0).pgran < 8 * ((ts tg).roleOf placedBlock 0).pgran ∧ (((ts tg).gridOf placedBlock).map Grid.gang).getD 0 = 0 ∧
    okWord tg tm (.regacq (br 126)) = true ∧ okWord tg tm (.regrel (br 2)) = true ∧ okWord tg tm .gangbar = true ∧
    okWord chg tm (.cwait (br 2)) = true ∧ xbit (br 2) 1 = true ∧
    ((ts chg).children placedBlock 0).filter (fun x => x.seq == (chg.getS64 2).toNat) = [] := by
  decide +kernel
/-- TWAIT of no endpoint, TRET outside an entry and at another depth, TMASK with an entry PC that is misaligned. -/
theorem witness_TetherWords_traps : (tes []).epSet placedBlock pd 0 0 = [] ∧ tg.inEntry = false ∧
    ({ eng' with sdepth := 1 } : Group).depth ≠ ({ eng' with sdepth := 1 } : Group).sdepth ∧
    (let g := { tg with s := [(2, 1), (6, 4)] }
     g.getS64 2 ≠ 0 ∧ (g.getS64 6).toNat % 8 ≠ 0 ∧ okWord g tm (.tmask rr) = true) ∧ okWord tg tm (.tret rr) = true ∧
    okWord { eng' with sdepth := 1 } tm (.tret rr) = true ∧ okWord tg tm (.twait rr) = true := by
  decide +kernel
/-- SYSCALLB of a group whose block has met differing numbers. -/
theorem witness_CallWords_bad : 0 ∈ ({ placedBlock with sysBad := [0] } : Block).sysBad ∧ tg.gid = 0 ∧ 0 ∉ placedBlock.sysBad ∧
    (outW red9).redsOut 0 = true ∧ (ts tg).redsOut 0 = false := by
  decide +kernel

/-! ### The supervisor's words -/

/-- A group whose entry is popped, with its allotment of eight registers and one entry on chip. -/
def vg : Group := { tg with allot := 8, parked := true, stack := [ie 0x100100 2], depth := 1 }
def vs : State := { ts vg with cores := aput 0 { k0 with mq := [(5, en 1 true), (6, en 1 false), (7, en 3 true)] } (ts vg).cores }
/-- The indices of each clause of R303 at the ends of its range: read-only, writable, packed, the stack area, beyond the record, the block's. -/
theorem witness_ControlRegisterWords_index : aget? 5 (vs.core 0).mq = some (en 1 true) ∧ vs.group? (en 1 true).key = some vg ∧ vg.blk = some 0 ∧
    aget? 6 (vs.core 0).mq = some (en 1 false) ∧ aget? 7 (vs.core 0).mq = some (en 3 true) ∧ aget? 4 (vs.core 0).mq = none ∧
    (∀ n ∈ [0, 6, 7, 30, 31, 64, 127, 128, 135, 136, 191, 192, 703, 711, 960, 1023, 1279], n < 704 + 8 ∨ (960 ≤ n ∧ n < 1024 + 32 * 8)) ∧
    (∀ n ∈ [712, 959, 1280], 704 + 8 ≤ n ∧ (n < 960 ∨ 1024 + 32 * 8 ≤ n)) ∧ (recordWord vg 0).isSome = true ∧
    (recordWord vg 1279).isSome = true ∧ vg.spill ≤ (199 - 192) / 8 ∧ vg.stack[vg.depth - 1 - (199 - 192) / 8]? = some (ie 0x100100 2) ∧
    vg.depth ≤ (200 - 192) / 8 ∧ vs.blockHasWord 0 placedBlock 1023 = true ∧ vs.blockHasWord 0 placedBlock (2 ^ 22 - 1) = false ∧
    2 ^ 22 / 2 ^ 22 % 512 ≠ 0 ∧ (2 ^ 31 + 7) / 2 ^ 22 % 512 = 0 := by
  decide +kernel
/-- Where a swap-out saves and what it lays out: four words from word 3 of a record at 0x50000. -/
def img5 : DWord := 0x50000
def fourWords (n : Nat) : Option Word := if n = 5 then none else some (BitVec.ofNat 32 (n * 77))
/-- The device address of context 0's byte a. -/
def ctx0At (s : State) (a : DWord) (wr : Bool) : Option Nat := match s.ctx0Addr 0 a wr with
  | .ok x => some x
  | .error _ => none
theorem witness_SwapWords_save : (let s := ps mg
    let pa := (ctx0At s (img5 + 12) true).getD 0
    (∀ i, i < 16 → ctx0At s (img5 + BitVec.ofNat 64 (4 * 3 + i)) true = some (pa + i)) ∧
    ∀ i, i < 16 → ctx0At (s.saveWords 0 img5 3 4 fourWords) (img5 + BitVec.ofNat 64 (4 * 3 + i)) false = some (pa + i)) := by
  decide +kernel
/-- A record without registers, of a group whose lanes have ended: its words are those of the group. -/
def recG : Group := { tg with allot := 0, mask0 := 0, live := 0, v := [] }
def recPa : Nat := (ctx0At (ps mg) img5 false).getD 0
def recWords : List (Nat × Word) := (0, 0x100000) :: (List.range 8).map (fun k => (128 + k, 0x80808080))
def recS : State := recWords.foldl (fun s e => s.writePhysN (recPa + 4 * e.1) (leBytes e.2.toNat 4) false) (ps mg)
theorem witness_SwapWords_load : recG.allot % 8 = 0 ∧ recG.stack.length = recG.depth - recG.spill ∧ recG.trap.cause < 32 ∧ img5.toNat % 1024 = 0 ∧
    recPa % 1024 = 0 ∧ (∀ k, k < 4 → ctx0At recS (img5 + BitVec.ofNat 64 (1024 * k)) false = some (recPa + 1024 * k)) ∧ recS.memPoison = [] ∧
    ∀ q, q < 32 → ∀ r, r < 32 → (32 * q + r < 704 ∨ 960 ≤ 32 * q + r) → ((ps mg).groupWordAt recG (32 * q + r)).all (fun v =>
      (List.range 4).all (fun j => recS.readPhys (recPa + 4 * (32 * q + r) + j) == v.extractLsb' (8 * j) 8)) = true := by
  decide +kernel
/-- PREEMPT of no partition, of too many cores, of one core under hold class 1, and the release of a request that stands and of one that does not. -/
def holdS : State := { ss sg with parts := amod 0 (fun (p : Partition) => { p with preempts := [{ id := 4, cores := [0], hold := 1 }] }) (ss sg).parts }
theorem witness_SignalWords_preempt : (ss sg).parts.length ≤ 7 ∧ 0 < (ss sg).parts.length ∧ ((ss sg).healthy 0).length < 255 ∧
    1 ≤ ((ss sg).healthy 0).length ∧ (257 % 256 = 1 ∧ 257 / 256 % 8 = 1 ∧ 257 / 32768 % 2 = 0) ∧ 32768 / 32768 % 2 = 1 ∧
    (∀ e ∈ (ss sg).grids, e.2.prio ≤ 7) ∧ (aget? 0 (ss sg).parts).isSome = true := by
  decide +kernel
theorem witness_SignalWords_sorted : ASorted (ss sg).cores := by unfold ASorted; decide +kernel
/-- An entry of another ASID that a removal leaves; a unit of another ASID that it leaves; blocks and grids beside a killed context's. -/
def leftS : State := { ps mg with cores := aput 0 { k0 with perm := [ent true] } (ps mg).cores, units := [unit1] }
theorem witness_InvalidateWords_left : (let r : InvRange := { mode := 1, asid := 7, glb := false, lo := 0, len := 0 }
    (aget? 0 (leftS.invalidate 0 0 r true).cores).any (fun k => k.part == 0 && k.perm == [ent true]) = true ∧
    unit1 ∈ (leftS.dropCode 0 7 0 8).units ∧ ¬ ((ent true).asid = 7)) := by
  decide +kernel
/-- Control words of WPSET: refused, a breakpoint at an odd and at a good PC, a range beyond the space, a comparator that another ASID holds. -/
theorem witness_DebugWords_status : (128 / 128 % 512 ≠ 0) ∧ (8 / 8 % 2 = 1 ∧ 8 / 4 % 2 = 0) ∧ (0x100001 : DWord).toNat % 8 ≠ 0 ∧
    (16 / 8 % 2 = 0 ∧ 16 / 16 % 4 = 1 ∧ 16 / 64 % 2 = 0 ∧ 16 / 2 ^ 16 = 0) ∧ canonical (0x0100000000000000 : DWord) = false ∧
    canonical (0x200000 + 3 : DWord) = true ∧
    (let x : Comparator := { start := 0, len := 4, lanes := 1, ctl := 16, asid := 9 }
     aget? 0 ({ k0 with comps := [(0, x)] } : Core).comps = some x ∧ x.asid.toNat ≠ ((ps mg).whoGroup mg).asid) := by
  decide +kernel
theorem witness_DebugWords_counters : (17 : Nat) > 16 ∧ 17 < 32 ∧ 49 > 48 ∧ (256 + 5) / 256 % 2 = 1 ∧ sg.isSup = true ∧ tg.isSup = false ∧
    (ts tg).blockOf tg = some placedBlock := by
  decide +kernel

/-! ### Events -/

/-- RoundTo at the values that each clause speaks of: 1 + 2^-24, a tie of FP32 that goes to the even 1; 2^128, which overflows; and a value of
which the leading digits alone are known. -/
theorem witness_FloatWords_round : (roundTo f32 (.fin false (2 ^ 24 + 1) (-24) false) 0 false 0) = (0x3F800000, fNX) ∧
    (roundTo f32 (.fin false 1 128 false) 0 false 0).2 &&& fOF ≠ 0 ∧ 2 ^ (f32.mw + 1) ≤ 2 ^ 24 ∧ 2 ^ 24 * 2 ^ 1 < 2 ^ 25 + 1 ∧
    2 ^ 25 + 1 < (2 ^ 24 + 1) * 2 ^ 1 := by
  decide +kernel
/-- A check that reaches the same entry for every byte of a run. -/
theorem runAt_of {s : State} {w : Who} {acc : Access} {ok : Bool} {va : DWord} {n pa : Nat} {e : PermEntry} (h0 : e.stripe = none)
    (h1 : pa % 64 = va57 va % 64)
    (h : ∀ k, k < n → va57 (va + BitVec.ofNat 64 k) = va57 va + k ∧ reachesDev (s.checkByte w acc (va + BitVec.ofNat 64 k) ok) e (pa + k) = true) :
    RunAt s w acc ok va n e pa := by
  refine ⟨h0, h1, fun k hk => ⟨(h k hk).1, ?_⟩⟩
  have r := (h k hk).2
  revert r
  unfold reachesDev
  split
  · intro h
    rename_i heq
    rw [heq]
    simp only [Bool.and_eq_true, beq_iff_eq] at h
    rw [h.1, h.2]
  · intro h; cases h
/-- Operations of 16 bytes of each kind: CPY, CPYF, an element of CPYT of four bytes inside the tensor and one outside, a row of GATH, of SCAT and
of SCAT that adds FP32. -/
def op16 (kind : Nat) (x : BitVec 9) (param : List Word) : EngineOp :=
  { run5 with kind, gather := 4 ≤ kind, len := 16, xop := x, param, dst := if kind = 2 then 64 else 0x200000, coord := [0, 0, 0, 0, 0] }
def tileP (dim : Word) : List Word := [0x300000, 0, 2 + 4, 0, dim, 0, 0, 0, 0, 0, 0, 0, 0, 3, 0, 0]
def rowP : List Word := [0x300000, 0, 16, 16, 0, 1, 64, 0]
theorem witness_EngineEvents_run :
    RunAt (opS run5) ((opS run5).whoOp 0 run5) .read true 0x300000 16 (ent true) 0x300000 ∧
    RunAt (opS run5) ((opS run5).whoOp 0 run5) .write true 0x200000 16 (ent true) 0x200000 ∧
    RunAt (opS run5) ((opS run5).whoOp 0 run5) .atomicDev false 0x300000 16 (ent true) 0x300000 := by
  refine ⟨runAt_of rfl (by decide) ?_, runAt_of rfl (by decide) ?_, runAt_of rfl (by decide) ?_⟩ <;> decide +kernel
theorem witness_EngineEvents_ops :
    (tilePos (op16 2 0 (tileP 4)) 0).inb = true ∧ (tilePos (op16 2 0 (tileP 3)) 3).inb = false ∧ (tilePos (op16 2 0 (tileP 4)) 0).addr = 0x300000 ∧
    (∀ k, k < 16 → 64 + k < 0 ∨ 0 + 4 * 1 ≤ 64 + k) ∧ (op16 5 64 rowP).xop.extractLsb' 6 2 = 1 ∧ (op16 1 0x50 []).dScr = true ∧
    (op16 1 0x50 []).sScr = true ∧ (op16 4 0 rowP).par 3 = 16 ∧ (opS run5).memPoison = [] ∧ (opS run5).requests = [] ∧
    ((opS run5).core 0).ops.filter (fun x => x.id == run5.id) = [run5] ∧ (opS run5).group? (opKey 0 run5) = some mg ∧
    (opS run5).opsOf 0 (opKey 0 run5) false = [run5] ∧ moves (engNext (opS (op16 5 64 rowP)) 0 (op16 5 64 rowP) 16) = 0 := by
  decide +kernel
theorem witness_EngineEvents_settled : Settled (opS run5) 0 ∧ EmptyCaches ((opS run5).core 0) ∧ NoStash (opS run5) ∧ run5.blk = some 0 ∧
    aget? 0 (opS run5).blocks = some placedBlock ∧ run5.pend.fails = [] :=
  ⟨⟨by decide +kernel, by decide +kernel, by decide +kernel, by decide +kernel, ⟨(opS run5).core 0, by decide +kernel⟩⟩,
    by unfold EmptyCaches; decide +kernel, by unfold NoStash; decide +kernel, rfl, by decide +kernel, rfl⟩
/-- The highest block of a grid alone makes room for a lower one that waits to return. -/
theorem witness_DistributorEvents_higher : (let g := { placedGrid with returns := [swapped] }
    let b := { placedBlock with linear := 1 }
    let b2 := { placedBlock with linear := 2, slot := 1 }
    let s : State :=
      { ps mg with tick := 20000, grids := [(gridKey 0 1, g)], blocks := [(0, b), (1, b2)], cores := [(0, { k0 with vacating := true })] }
    let higher := s.blocks.filter (fun e => e.2.part == 0 && e.2.seq == 1 && swapped.linear < e.2.linear)
    (1, b2) ∈ higher ∧ (∀ e ∈ higher, e ≠ (1, b2) → e.2.linear < b2.linear) ∧ s.requested b2.core 1 = false ∧ s.eligibleEntry g swapped = true ∧
      s.couldReadmit g swapped = false ∧ s.gangOf 0 1 = 0) := by
  decide +kernel
/-- A posted write that a response completes, a request whose context is not asked for, pod configuration, and a block's grid. -/
theorem witness_LinkAndPortEvents_more : { rq .posted with target := .host 0x40000000 false }.completes = true ∧ (rq .posted).completes = false ∧
    aget? 9 (rqS .load).ctxWait = none ∧ ({ ts tg with podInstalled := true } : State).podInstalled = true ∧ (ts tg).booted = true ∧
    linkCode 33 < 16 ∧ ¬ linkCode (1 + 2 ^ 40 * 34) < 16 := by
  decide +kernel
/-- A check that passes. -/
def okE {α β : Type} (x : Except α β) : Bool := match x with
  | .ok _ => true
  | .error _ => false
/-- A ring of sixteen entries with one waiting; a launch record at 0x200000; an INVAL that is done at once; a page and a window to bind. -/
def ringS : State := { launchS 0x200000 with hostUp := true, parts := amod 0 (fun (p : Partition) => { p with sqsize := 16, sqtail := 1 }) (launchS 0x200000).parts }
theorem witness_HostEvents_launch : ringS.entryWaits 0 = true ∧ ((ringS.ctxCore 1).bind (fun c => ringS.desc c 1)).any (fun d => d.part == 0) = true ∧
    (0x200000 : DWord).toNat % 64 = 0 ∧
    (∀ k, k < 4 → (okE (ringS.checkByte (ringS.whoDist 0 1) .read (recordVa 0x200000 k) true)) = true) ∧
    (readRecord ringS (ringS.whoDist 0 1) 0x200000 (ringS.part 0).sqPend).needs = [] ∧
    (readRecord ringS (ringS.whoDist 0 1) 0x200000 (ringS.part 0).sqPend).failed = none ∧ (aget? 0 ringS.parts).isSome = true := by
  decide +kernel
theorem witness_HostEvents_entries : (ringS.tableCore 0).isSome = true ∧ invStatus (2 ^ 17) 0 0 = 0 ∧ invStatus (2 ^ 20) 0 0 ≠ 0 ∧
    ringS.redsIn 0 = false ∧ ({ ringS with requests := [(9, red9)] } : State).redsIn 0 = true ∧
    ((ringS.invalidate 0 0 (invRange (2 ^ 17) 0 0) false).openTags 0 = []) ∧
    (65535 : DWord).toNat ≤ 65535 ∧ ringS.ctxCore 1 ≠ none ∧ ringS.ctxCore 9 = none ∧
    (let c : DWord := 0x0000100000000001
     c.toNat / 2 ^ 44 % 2 = 1 ∧ c.toNat / 2 ^ 0 % 2 ^ 36 = 1 ∧ c.toNat / 2 ^ 36 % 2 ^ 6 ≤ 62 ∧ c.toNat / 2 ^ 42 % 2 ^ 2 ≠ 3 ∧ c.toNat / 2 ^ 46 % 2 ^ 2 = 0) ∧
    leNat (([9, 0] : List Byte).take 2) = 9 := by
  decide +kernel
/-- RECLAIM of an orphan within GRACE, and of one after it. -/
def soonS : State := { orphanS with tick := 0, portDownTick := 0 }
/-- The lowest context of partition 0 that is an orphan, by whether GRACE is over for it. -/
def orphanOf (s : State) (late : Bool) : Option (BitVec 16) :=
  ((s.partCtxs 0).find? (fun x => x.2.orphaned && s.graceOver 0 x.1 == late)).map Prod.fst
theorem witness_HostEvents_reclaim : orphanOf soonS false = some 1 ∧ (soonS.rawDesc 0 1).map Desc.token = some 0 ∧
    (soonS.healthy 0).head? = some 0 := by
  decide +kernel
theorem witness_ResetEvents_orphans : orphanOf orphanS true = some 1 ∧ orphanOf outS true = some 1 := by decide +kernel
/-- A sector of device memory, and one of the firmware's reserve, whose unit goes. -/
theorem witness_ManagementEvents_poison : (0x200000 : Nat) < hbmEnd ∧ 0 < (ps mg).parts.length ∧ ((ps mg).part 0).info.fwres < hbmEnd := by
  decide +kernel

/-! ## WellFormed refuses, and the decoder with it -/

/-- An R-form word, an I-form word and an M-form word whose fields are all 0, without guard. -/
def r0 : RWord := { rr with d := 0, a := 0, b := 0 }
def i0 : IWord := { qq with d := 0, a := 0, imm := 0 }
def m0 : MWord := { mm with d := 0, a := 0, b := 0, sz := 2 }
/-- One pair half. -/
def hf (op : PairOp) (d a : BitVec 8) (m9 : BitVec 9) : Half := { op, d, a, m9 }
/-- Terms that break one rule each, with the reason of R59: unused fields and bits (4), values that no meaning has (5), register classes
and runs (6), guards (7), modifiers (8), pair banks (3). -/
def illFormed : List (Instr × Nat) :=
  [(.nop rr, 4), (.exit { r0 with xop := 1 }, 4), (.bar { r0 with c := 1 }, 4), (.sleep { i0 with d := 1 }, 4),
   (.syscall { i0 with imm := 0x1000 }, 4), (.bkpt { i0 with imm := 0x10000 }, 4), (.trapW { i0 with imm := 0x1000000 }, 4),
   (.bra { bb with bop := 1 }, 4), (.elseW { bb with bop := 1 }, 4), (.fcmp { r0 with c := 16 }, 4), (.ld { m0 with b := 2 }, 4),
   (.iadd r0, 5), (.icmp { r0 with xop := 12 }, 5), (.imulh { r0 with xop := 0x0C0 }, 5), (.iaddI { i0 with im := 1 }, 5),
   (.movs { r0 with a := 0x15 }, 5), (.redux { r0 with xop := 12 }, 5), (.fadd { r0 with xop := 12 }, 5), (.fclass { r0 with c := 6 }, 5),
   (.cvt { r0 with b := 0x11 }, 5), (.fsetm { r0 with ua := true, uc := true, xop := 1 }, 5), (.ld { m0 with sz := 6 }, 5),
   (.ld { m0 with ord := 1 }, 5), (.atomAdd { m0 with sc := 1, cp := 3, sz := 3 }, 5), (.cctlWb { m0 with sz := 0, b := 5 }, 5),
   (.fence { r0 with xop := 1 }, 5), (.cpy { r0 with ua := true, ub := true, xop := 0x080 }, 5), (.cpyx r0, 5),
   (.regacq { r0 with xop := 66 }, 5), (.csrrd { i0 with imm := 9 }, 5), (.csrwr { i0 with imm := 0x10 }, 5), (.bra { bb with bop := 0x3000000 }, 5),
   (.elseW { bb with tgt := 0 }, 5), (.ifThen bb, 5), (.endloop bb, 5), (.faddI { i0 with imm := 0x1000001 }, 5),
   (.iadd { r0 with xop := 0x081 }, 6), (.mov { r0 with d := 1, xop := 2 }, 6), (.imadw { r0 with c := 1, xop := 0x080 }, 6),
   (.ld { m0 with a := 1 }, 6), (.st { m0 with sz := 4, b := 2 }, 6), (.icmp { r0 with d := 8 }, 6), (.mqpop { r0 with d := 4 }, 6),
   (.launch r0, 6), (.bra { bb with bop := BitVec.ofNat 26 (2 ^ 23 + 64 * 2 ^ 15) }, 6), (.call { bb with bop := BitVec.ofNat 26 (2 ^ 18) }, 6),
   (.ifThen { bb with bop := BitVec.ofNat 26 (8 * 2 ^ 18 + 32) }, 6),
   (.iadd { r0 with pn := true, xop := 0x080 }, 7), (.mmaq { r0 with pg := 0 }, 7), (.bra { bb with pg := 0 }, 7), (.cwait { r0 with pg := 1 }, 7),
   (.andR { r0 with aa := true }, 8), (.mov { r0 with na := true }, 8), (.fadd { r0 with xop := 0x100 }, 8), (.fmin { r0 with xop := 0x080 }, 8),
   (.tbinit { r0 with ua := true, xop := 0x100 }, 8),
   (.pairWord { h0 := hf .mov 0 0 0x100, h1 := hf .mov 4 0 0x100 }, 3), (.pairWord { h0 := hf .shl 0 0 0x120, h1 := hf .mov 1 0 0x100 }, 5),
   (.pairWord { h0 := hf .and 0 0 0x040, h1 := hf .mov 1 0 0x100 }, 8), (.pairWord { h0 := hf .iadd 0 0 0x001, h1 := hf .mov 1 0 0x100 }, 4)]
theorem test_wellFormed_refuses : ∀ e ∈ illFormed, ¬ WellFormed e.1 ∧ minReason (fieldsBad e.1) = some e.2 := by decide +kernel
/-- The decoder answers each of their words with an ILLEGAL_WORD of that reason. -/
def illegalReason (i : Instr) : Nat := match i with
  | .illegalWord _ reason _ _ => reason
  | _ => 0
theorem test_decoder_refuses : ∀ e ∈ illFormed, (encode e.1).map (fun w => illegalReason (decodeWord w)) = some e.2 := by decide +kernel
/-- The constants by which rows of one code differ, and the reasons of an ILLEGAL_WORD. -/
theorem test_wellFormed_constants : ∀ i ∈ [Instr.cctlInv { m0 with sz := 0 }, .csrwr { i0 with imm := 0x27 }, .wdpet { i0 with imm := 0 },
    .hintUnimplemented 3 r0, .illegalWord 0 0 false false, .illegalWord 0 10 false false], ¬ WellFormed i := by decide +kernel
/-- An unassigned code and a reserved bit of a pair word (R43, R58) are no instruction's. -/
theorem test_unassigned : illegalReason (decodeWord 0x7FF8000000000000) = 1 ∧ illegalReason (decodeWord 0xC000000000000000) = 2 ∧
    illegalReason (decodeWord 0x4018000000000000) ≠ 0 := by decide +kernel

/-! ## Words written out -/

/-- A word of the R form from its fields at the bits of R33: the nine bits of U, N and A together, most significant UA. -/
def rBits (op d a b c una xop : Nat) : DWord :=
  BitVec.ofNat 64 (op * 2 ^ 54 + 7 * 2 ^ 51 + d * 2 ^ 42 + a * 2 ^ 34 + b * 2 ^ 26 + c * 2 ^ 18 + una * 2 ^ 9 + xop)
/-- The codes of R49, range by range, in the order of its tables. -/
def codeMap : List (Nat × List Instr) :=
  [(0x000, [.nop rr, .exit rr, .bra bb, .brx rr, .call bb, .callx rr, .ret rr, .ifThen bb, .elseW bb, .endif, .loopW bb, .endloop bb, .breakW bb,
     .cont bb, .yield, .sleep qq]),
   (0x020, [.iadd rr, .iaddI qq, .iadd3 rr, .isub rr, .imul rr, .imulI qq, .imulh rr, .imad rr, .imadw rr, .idiv rr, .irem rr, .imin rr, .imax rr,
     .isad rr, .idot4 rr, .idot8 rr, .icmp rr, .sel rr, .andR rr, .andI qq, .orR rr, .orI qq, .xorR rr, .xorI qq, .lop3 rr, .shl rr, .shr rr,
     .sar rr, .shf rr, .bfe rr, .bfi rr, .brev rr, .clz rr, .popc rr, .ffs rr, .prmt rr, .mov rr, .movi qq, .movis qq, .lea rr, .add64 rr,
     .add64I qq, .sub64 rr, .mul64 rr, .cmp64 rr, .movs rr, .movrx rr, .movwx rr, .shfl rr, .vote rr, .redux rr, .matchL rr, .pset rr, .p2v rr,
     .v2p rr]),
   (0x060, [.fadd rr, .faddI qq, .fmul rr, .fmulI qq, .ffma rr, .fmin rr, .fmax rr, .fcmp rr, .frcp rr, .frsq rr, .fsqrt rr, .fdiv rr, .fex2 rr,
     .flg2 rr, .fsin rr, .fcos rr, .ftanh rr, .fclass rr, .frnd rr]),
   (0x080, [.dadd rr, .dmul rr, .dfma rr, .dmin rr, .dmax rr, .dcmp rr, .ddiv rr, .dsqrt rr]),
   (0x090, [.padd2F16 rr, .pmul2F16 rr, .pfma2F16 rr, .pmin2F16 rr, .pmax2F16 rr, .pcmp2F16 rr]),
   (0x098, [.padd2Bf16 rr, .pmul2Bf16 rr, .pfma2Bf16 rr, .pmin2Bf16 rr, .pmax2Bf16 rr, .pcmp2Bf16 rr]),
   (0x0A0, [.cvt rr, .cvtp rr, .fsetm rr, .clrf rr]),
   (0x0B0, [.ld mm, .st mm, .ldro mm, .roinv rr, .lds mm, .sts mm, .stmap rr, .stunmap rr, .ldm mm, .stm mm, .pref mm, .cctlWb mm, .fence rr,
     .probe mm]),
   (0x0E0, [.atomAdd mm, .atomMin mm, .atomMax mm, .atomAnd mm, .atomOr mm, .atomXor mm, .atomExch mm, .cas mm, .redAdd mm, .redMin mm, .redMax mm,
     .redAnd mm, .redOr mm, .redXor mm, .atomsAdd mm, .atomsMin mm, .atomsMax mm, .atomsAnd mm, .atomsOr mm, .atomsXor mm, .atomsExch mm, .cass mm,
     .bar rr, .tbinit rr, .tbarr rr, .tbexp rr, .tbwait rr, .tbtest rr, .tbinv rr]),
   (0x100, [.cpy rr, .cpyt rr, .cpyf rr, .gath rr, .scat rr, .waitc rr, .cpyq rr, .cpyx rr]),
   (0x120, [.mma rr, .mmaq rr, .mmaqs rr, .mzero rr, .mcvt rr, .fslot rr]),
   (0x140, [.launch rr, .cwait rr, .regacq rr, .regrel rr, .gangbar]),
   (0x150, [.treg rr, .tfree rr, .tsend rr, .twait rr, .tpoll rr, .tmask rr, .tpermAdd rr, .tret rr]),
   (0x160, [.syscall qq, .syscallb qq, .trapW qq, .bkpt qq, .sret rr, .mqpop rr, .mqrplRetry rr, .vsrd rr, .vswr rr, .csrrd qq, .csrwr qq,
     .swapoutReturn rr, .swapin rr, .ptinvRange rr, .tcinv rr, .tcpin rr, .hqput rr, .sigpostUser rr, .halt rr, .preempt rr]),
   (0x178, [.trace rr, .wpset rr, .wpclr rr, .perfrd rr, .mark qq]),
   (0x180, [.hpri rr, .hlive rr, .hqlen rr, .hloc rr]),
   (0x1C0, [.fdiva rr, .imad24 rr, .hsel2Ll rr, .hsel2Lh rr, .hsel2Hl rr, .hsel2Hh rr, .ldnc mm, .cvth4 rr, .votex rr])]
theorem test_code_map : ∀ e ∈ codeMap, e.2.map opcodeOf = (List.range e.2.length).map (fun k => some (e.1 + k)) := by decide +kernel
/-- Words of each class with their fields at the bits of R33, R40, R41, R42, R43, and the instructions they stand for. The words without
operands are those that the chapters give. -/
def written : List (DWord × Instr) :=
  [(0x0038000000000000, .nop r0), (0x0078000000000000, .exit r0),
   (rBits 0x003 0 6 0 0 256 0, .brx { r0 with a := 6, ua := true }),
   (0b0_000000111_111_0_000000000000000000000100_00000010_1_00000000000001000, .ifThen { bb with tgt := 4, bop := 0b00000010_1_00000000000001000 }),
   (rBits 0x032 9 10 11 0 0b000001000 0, .andR { r0 with d := 9, a := 10, b := 11, nb := true }),
   (rBits 0x02B 1 2 3 0 0b010110000 0x080, .imin { r0 with d := 1, a := 2, b := 3, ub := true, na := true, aa := true, xop := 0x080 }),
   (rBits 0x038 1 2 3 4 0 0b011101000, .lop3 { r0 with d := 1, a := 2, b := 3, c := 4, xop := 0b011101000 }),
   (rBits 0x050 1 2 3 4 0 0b000001110, .shfl { r0 with d := 1, a := 2, b := 3, c := 4, xop := 14 }),
   (rBits 0x064 1 2 3 4 0b000000010 0b010000110, .ffma { r0 with d := 1, a := 2, b := 3, c := 4, nc := true, xop := 0b010000110 }),
   (rBits 0x080 2 4 6 0 0 0, .dadd { r0 with d := 2, a := 4, b := 6 }),
   (rBits 0x090 2 4 6 0 0 0b101100100, .padd2F16 { r0 with d := 2, a := 4, b := 6, xop := 0b101100100 }),
   (rBits 0x0A0 5 6 0x81 0 0 0, .cvt { r0 with d := 5, a := 6, b := 0x81 }),
   (0b0_010110101_111_0_00000000_00000010_00001000_01_10_010_00_0_1111111111111100,
     .sts { pg := 7, pn := false, d := 0, a := 2, b := 8, sc := 1, ord := 2, sz := 2, cp := 0, au := false, off := 0xFFFC }),
   (rBits 0x0BC 0 0 0 0 0 14, .fence { r0 with xop := 14 }),
   (0b0_011110101_111_0_00000100_00000010_00001000_00_11_010_00_0_0000000000000000,
     .cass { pg := 7, pn := false, d := 4, a := 2, b := 8, sc := 0, ord := 3, sz := 2, cp := 0, au := false, off := 0 }),
   (rBits 0x0F6 0 5 0 0 256 0b000100110, .bar { r0 with a := 5, ua := true, xop := 0b000100110 }),
   (rBits 0x100 2 4 6 8 0b111000000 0x100, .cpy { r0 with d := 2, a := 4, b := 6, c := 8, ua := true, ub := true, uc := true, xop := 0x100 }),
   (rBits 0x120 64 0 16 0 0 0b010000000, .mma { r0 with d := 64, b := 16, xop := 128 }),
   (0x5038000000000000 + 4 * 2 ^ 42 + 2 * 2 ^ 34 + 2 ^ 17, .launch { r0 with d := 4, a := 2, ua := true }),
   (0x5138000000000000, .gangbar),
   (0x54B8000000000000 + 2 ^ 42 + 2 * 2 ^ 34 + 4 * 2 ^ 26 + 6 * 2 ^ 18 + 7 * 2 ^ 15 + 3,
     .tsend { r0 with d := 1, a := 2, b := 4, c := 6, ua := true, ub := true, uc := true, xop := 3 }),
   (0x55F8000000000000, .tret r0), (0x5838000000000005, .syscall { i0 with imm := 5 }), (0x5938000000000000, .sret r0),
   (0x5A78000000000026 + 5 * 2 ^ 42, .csrrd { i0 with d := 5, imm := 0x26 }), (0x5AB8000000000027 + 3 * 2 ^ 34, .wdpet { i0 with a := 3, imm := 0x27 }),
   (0x5CB8000000000000, .halt r0), (rBits 0x178 0 4 0 0 256 0x155, .trace { r0 with a := 4, ua := true, xop := 0x155 }),
   (rBits 0x181 7 9 0 0 0 1, .hlive { r0 with d := 7, a := 9, xop := 1 }), (rBits 0x1BF 0 0 0 0 0 0, .hintUnimplemented 63 r0),
   (rBits 0x1C0 0 1 2 0 0 0, .fdiva { r0 with a := 1, b := 2 })]
theorem test_written_words : ∀ e ∈ written, decodeWord e.1 = e.2 ∧ encode e.2 = some e.1 := by decide +kernel
/-- The bytes of a word stand at rising addresses, the least significant first. -/
theorem test_decodeTableWord : decodeTableWord 64 0x0078000000000000 = some (.exit r0) ∧
    (decodeBytes [0, 0, 0, 0, 0, 0, 0x78, 0]).map Prod.fst = some (.exit r0) := by decide +kernel

/-! ## Single steps, with values calculated by hand from the rules -/

/-- What a part of the state after one word is. -/
def got {α : Type} (i : Instr) (s : State) (f : State → α) : Option α := match exec i s with
  | .next t => some (f t)
  | _ => none
/-- A register of the group after one word. -/
def vOf (i : Instr) (s : State) (r l : Nat) : Option Word := got i s (fun t => ((t.group? s.cur.key).getD sg).getV r l)
def sOf (i : Instr) (s : State) (r : Nat) : Option Word := got i s (fun t => ((t.group? s.cur.key).getD sg).getS r)
def pOf (i : Instr) (s : State) (r : Nat) : Option Mask := got i s (fun t => ((t.group? s.cur.key).getD sg).getP r)
def gOf {α : Type} (i : Instr) (s : State) (f : Group → α) : Option α := got i s (fun t => f ((t.group? s.cur.key).getD sg))
/-- A group whose lane 0 has v2 = a, v6 = b, v8 = c. -/
def ab (a b c : Word) : State := ts { tg with v := [(64, a), (192, b), (256, c)] }
def rx (x : BitVec 9) : RWord := { rr with c := 8, xop := x }

-- R96, R93: 0xFFFFFFFF + 1 wraps to 0; 0x7FFFFFFF + 1 under .s32 with SAT stays
theorem test_iadd_wraps : vOf (.iadd (rx 0x100)) (ab 0xFFFFFFFF 1 0) 4 0 = some 0 := by decide +kernel
theorem test_iadd_saturates : vOf (.iadd (rx 0x0C0)) (ab 0x7FFFFFFF 1 0) 4 0 = some 0x7FFFFFFF := by decide +kernel
-- R96: the high word of -1 × 1 is the floor, -1; under .n32 it is 0
theorem test_imulh_floor : vOf (.imulh (rx 0x080)) (ab 0xFFFFFFFF 1 0) 4 0 = some 0xFFFFFFFF := by decide +kernel
theorem test_imulh_natural : vOf (.imulh (rx 0x100)) (ab 0xFFFFFFFF 1 0) 4 0 = some 0 := by decide +kernel
-- R97: -7 / 2 truncates to -3, and the remainder is -1; by 0, all ones and the dividend
theorem test_idiv : vOf (.idiv (rx 0x080)) (ab 0xFFFFFFF9 2 0) 4 0 = some 0xFFFFFFFD ∧ vOf (.idiv (rx 0x100)) (ab 5 0 0) 4 0 = some 0xFFFFFFFF := by
  decide +kernel
theorem test_irem : vOf (.irem (rx 0x080)) (ab 0xFFFFFFF9 2 0) 4 0 = some 0xFFFFFFFF ∧ vOf (.irem (rx 0x100)) (ab 5 0 0) 4 0 = some 5 := by
  decide +kernel
-- R96: IDOT4 with signed bytes: 1×2 + (-1)×3 + 2×(-1) + 0 = -3, plus 10
theorem test_idot4 : vOf (.idot4 (rx 0x086)) (ab 0x0002FF01 0x00FF0302 10) 4 0 = some 7 := by decide +kernel
-- R98: shifts by 32 and by 40
theorem test_shl_32 : vOf (.shl (rx 0)) (ab 1 32 0) 4 0 = some 0 := by decide +kernel
theorem test_sar_40 : vOf (.sar (rx 0x080)) (ab 0x80000000 40 0) 4 0 = some 0xFFFFFFFF := by decide +kernel
-- R98: a right funnel shift of 0x00000001:0x80000000 by 4
theorem test_shf_right : vOf (.shf (rx 0)) (ab 0x80000000 1 4) 4 0 = some 0x18000000 := by decide +kernel
theorem test_prmt : vOf (.prmt (rx 0)) (ab 0x33221100 0x77665544 0x0000F704) 4 0 = some 0x00770044 := by decide +kernel
theorem test_clz_popc_ffs : vOf (.clz (rx 0)) (ab 0x00010000 0 0) 4 0 = some 15 ∧ vOf (.popc (rx 0)) (ab 0xF00F 0 0) 4 0 = some 8 ∧
    vOf (.ffs (rx 2)) (ab 0x00010001 0 0) 4 0 = some 16 := by decide +kernel
-- R40: a MOVI into a pair under IM = 01
theorem test_movi_upper : vOf (.movi { qq with im := 1, imm := 0xDEADBEEF }) (ts tg) 4 0 = some 0 ∧
    vOf (.movi { qq with im := 1, imm := 0xDEADBEEF }) (ts tg) 5 0 = some 0xDEADBEEF := by decide +kernel
-- R99: LEA adds a sign-extended index, 0x1_0000_0000 + (-1) × 4
theorem test_lea : vOf (.lea { rr with d := 8, xop := 0x084 }) (ts { tg with v := [(96, 1), (192, 0xFFFFFFFF)] }) 8 0 = some 0xFFFFFFFC ∧
    vOf (.lea { rr with d := 8, xop := 0x084 }) (ts { tg with v := [(96, 1), (192, 0xFFFFFFFF)] }) 9 0 = some 0 := by decide +kernel
-- R103: ADD over 32 lanes of which lane 0 holds 7 and the others 0; lane 1 gets lane 0's value under XOR 1; every lane votes
theorem test_redux_add : vOf (.redux (rx 0x100)) (ts tg) 4 31 = some 7 := by decide +kernel
theorem test_shfl_xor : vOf (.shfl (rx 6)) (ts { tg with v := [(64, 7), (193, 1)] }) 4 1 = some 7 := by decide +kernel
theorem test_vote_all : pOf (.vote { rr with d := 1, a := 7, xop := 2 }) (ts tg) 1 = some 0xFFFFFFFF := by decide +kernel
-- R119: 1 + 1 = 2; 1 / 0 = ∞ with DZ (bit 1 of FPFLAGS under R112); √2 = 0x3FB504F3
theorem test_fadd : vOf (.fadd (rx 0)) (ab 0x3F800000 0x3F800000 0) 4 0 = some 0x40000000 := by decide +kernel
theorem test_fdiv_zero : vOf (.fdiv (rx 0)) (ab 0x3F800000 0 0) 4 0 = some 0x7F800000 := by decide +kernel
theorem test_fsqrt : vOf (.fsqrt (rx 0)) (ab 0x40000000 0 0) 4 0 = some 0x3FB504F3 := by decide +kernel
-- R128: 2.5 to S32 rounds to even, 2; R121: the lesser of -0 and +0 is -0
theorem test_cvt_even : vOf (.cvt { rr with b := 0x81 }) (ab 0x40200000 0 0) 4 0 = some 2 := by decide +kernel
theorem test_fmin_zero : vOf (.fmin (rx 0)) (ab 0 0x80000000 0) 4 0 = some 0x80000000 := by decide +kernel
-- R44: IADD v5, v3, 7 beside MOV v4, 5
theorem test_pair : vOf (.pairWord pp) (ts { tg with v := [(96, 10)] }) 5 0 = some 17 := by decide +kernel
-- R77: IF on p0 with one lane divides the group; R88: EXIT of every lane ends it
theorem test_if_divides : gOf (.ifThen bb) (ts (pg 1)) (fun g => (g.mask0, g.mask1, g.depth)) = some (1, 0xFFFFFFFE, 1) := by decide +kernel
theorem test_exit_ends : gOf (.exit rr) (ts tg) (fun g => (g.state, g.live)) = some (.ended, 0) := by decide +kernel
-- R149: a 4-byte load takes the lowest address in the low byte; R172: ATOM.ADD gives the old value and leaves the sum
theorem test_ld_order : vOf (.ld mm) ((ps mg).putWords [(0x200000, 0x44332211)]) 4 0 = some 0x44332211 := by decide +kernel
theorem test_atom_add : vOf (.atomAdd md) ((ps mg).putWords [(0x200000, 40)]) 4 0 = some 40 ∧
    got (.atomAdd md) ((ps mg).putWords [(0x200000, 40)]) (fun t => t.readPhys 0x200000) = some 43 := by decide +kernel
theorem test_st_bypass : got (.st mt) (ps mg) (fun t => t.readPhys 0x200000) = some 3 := by decide +kernel
theorem test_sts : got (.sts mm) (ts (lm 8)) (fun t => (t.blocks.map (fun e => aval 0 8 e.2.loc))) = some [3] := by decide +kernel
-- R144, R295: an unmapped address moors the group with cause 5 and kind NOTPRESENT (2)
theorem test_ld_fault : gOf (.ld mm) (ps { mg with v := [(64, 0x40000000)] }) (fun g => (g.trap.cause, g.trap.w0.toNat % 16, g.parked)) =
    some (5, 2, true) := by decide +kernel
-- R176: the only group of a block passes its barrier; R179: the last arrival turns the phase
theorem test_bar_alone : gOf (.bar (br 0)) (ts tg) (fun g => (g.pc0, g.wait)) = some (0x100008, .none) := by decide +kernel
theorem test_tbarr_phase : got (.tbarr (br 0)) ({ ts tg with blocks := [(0, { tbb with tbars := [(0, { tb0 with pend := 1 }.word)] })] })
    (fun t => t.blocks.map (fun e => ((e.2.tb 0).ph, (e.2.tb 0).pend))) = some [(true, 2)] := by decide +kernel
-- R220: a row of 16 products 1 × 1 in FP16 sums to 16.0
def ones : List (Nat × Word) :=
  (List.range 8).map (fun k => (32 * k, 0x3C003C00)) ++ (List.range 8).map (fun k => (32 * (32 + k), 0x3C003C00))
theorem test_mma : vOf (.mma mr) (quad .none { tg with v := ones, mask0 := 1 }) 64 0 = some 0x41800000 := by decide +kernel
-- R297, R291: SYSCALL moors with cause 16 and its number; R288: a supervisor's BKPT goes to SVEC
theorem test_syscall : gOf (.syscall qq) (ts tg) (fun g => (g.trap.cause, g.trap.w0, g.trap.w1, g.state)) = some (16, 5, 0xFFFFFFFF, .moored) := by
  decide +kernel
theorem test_supervisor_trap : gOf (.bkpt qq) { ss sg with cores := aput 0 k1 (ss sg).cores } Group.pc0 = some 0x2000 := by decide +kernel
theorem test_sret : gOf (.sret rr) nestS Group.pc0 = some 0x1008 := by decide +kernel
theorem test_csrwr : got (.csrwr { qq with imm := 5 }) (ss { sg with v := [(64, 0xFFFFFFFF)] }) (fun t => (t.core 0).scause) = some 31 := by
  decide +kernel
-- R302: RETRY of a handle that is not popped gives status 1; R277: TMASK gives the old mask
theorem test_mqrpl_unpopped : sOf (.mqrplRetry rr) (ss sg) 4 = some 1 := by decide +kernel
theorem test_tmask : sOf (.tmask rr) (ts { tg with tmask := 9, s := [(2, 5)] }) 4 = some 9 ∧
    gOf (.tmask rr) (ts { tg with tmask := 9, s := [(2, 5)] }) Group.tmask = some 5 := by decide +kernel
-- R52, R54: HLIVE writes 0 and goes on
theorem test_hlive : vOf (.hlive { rr with xop := 1 }) (ts { tg with v := [(128, 9)] }) 4 0 = some 0 := by decide +kernel
-- R55: a retired word traps RETIRED (2) though no lane is ACTIVE
theorem test_retired : gOf (.votex { rr with pg := 0 }) (ts tg) (fun g => (g.trap.cause, g.trap.lanes)) = some (2, 0) := by decide +kernel
-- R302: NEXT resumes the group after its word, and the core's mooring queue is empty then
theorem test_mqrpl_next : (let t := ((callS (callG 1 [])).mqReply 0 0 1)
    (t.1, (t.2.core 0).mq, (t.2.group? 256).map (fun g => (g.state, g.parked)))) = (0, [], some (.running, false)) := by decide +kernel
-- R301, R339: a copy that faulted at its destination moors as a write, one that faulted at its source as a read
theorem test_fault_side : ({ op5 with dst := 0x1000, src := 0x9000, done := 16, faddr := 0x1010 } : EngineOp).faultWrites = true ∧
    ({ op5 with dst := 0x1000, src := 0x9000, done := 16, faddr := 0x9010 } : EngineOp).faultWrites = false := by decide +kernel

end Sys2Proof.Tests
end

section
/-! SUPPORT. Privilege (R50, R57, R295): the rows of the opcode table whose code is privileged all issue through the common checks, and what
those checks answer for a privileged word and for any other. -/
namespace Sys2Proof.Machine
open Sys2Proof.Claims

/-! ## The privileged codes -/

theorem privileged_iff (op : Nat) : privileged op = true ↔ ((0x164 ≤ op ∧ op ≤ 0x16D) ∨ (0x16F ≤ op ∧ op ≤ 0x173)) := by
  simp [privileged]
/-- No word before which slot 0 waits for slot 1 (R83) is privileged. -/
theorem slot0Waits_of_privileged {w : DWord} (hp : privileged (opField w) = true) : slot0Waits w = false := by
  rw [privileged_iff] at hp
  rw [Bool.eq_false_iff]
  intro h
  simp only [slot0Waits, Bool.and_eq_true, Bool.or_eq_true, decide_eq_true_eq, beq_iff_eq] at h
  omega
/-- A pair word is no full word (R44). -/
theorem packPair_not_full (p : PairWord) : (packPair p).getLsbD 63 = true := by
  refine extract_one _ _ _ ?_
  simp (disch := decide) only [packPair, BitVec.extractLsb'_append_eq_of_le]
  rfl
/-- The codes of the hint space (R52) are not privileged. -/
theorem not_privileged_hint (code : BitVec 6) : privileged (0x180 + code.zeroExtend 9 : BitVec 9).toNat = false := by
  rw [Bool.eq_false_iff, ne_eq, privileged_iff]
  bv_omega

/-! ## The checks -/

theorem regBound_cause {allot : Nat} {runs : List RegRun} {cur : Mask} {t : Trap} (h : regBound allot runs cur = some t) :
    t.cause = 10 := by
  unfold regBound at h
  dsimp only at h
  split at h
  · cases h
  · split at h
    · cases h
    · cases h; rfl
/-- The trap of a word's checks: PRIVILEGE for the privileged word of a user group, and else ILLEGAL, REGBOUND or the trap of R280. -/
theorem decodeChecks_cause {i : Instr} {g : Group} {slot1 : Bool} {bad : List Nat} {runs : List RegRun} {t : Trap}
    (h : decodeChecks i g slot1 bad runs = some t) :
    ((wordOf i).getLsbD 63 = false ∧ g.isSup = false ∧ privileged (opField (wordOf i)) = true ∧ t.cause = 3) ∨
      t.cause = 1 ∨ t.cause = 10 ∨ t.cause = 20 := by
  unfold decodeChecks at h
  dsimp only at h
  split at h
  case isTrue barred =>
    simp only [Bool.and_eq_true, Bool.not_eq_true'] at barred
    obtain ⟨⟨hfull, huser⟩, hp⟩ := barred
    cases h
    exact .inl ⟨hfull, huser, hp, rfl⟩
  case isFalse =>
    split at h
    · cases h; exact .inr (.inl rfl)
    · split at h
      next hb => cases h; exact .inr (.inr (.inl (regBound_cause hb)))
      next =>
        split at h
        · cases h; exact .inr (.inr (.inr rfl))
        · cases h
/-- The checks of a privileged word of a user group answer PRIVILEGE before any other (R57). -/
theorem decodeChecks_privileged {i : Instr} {g : Group} (slot1 : Bool) (bad : List Nat) (runs : List RegRun) (hu : g.isSup = false)
    (hf : (wordOf i).getLsbD 63 = false) (hp : privileged (opField (wordOf i)) = true) :
    decodeChecks i g slot1 bad runs = some (opTrap 3 (wordOf i) (g.mask slot1)) := by
  simp only [decodeChecks, hu, hf, hp, Bool.not_false, Bool.and_self, if_true]

/-! ## Words that issue through the checks -/

/-- The outcome o is that of the word i issuing in s: its checks come before its operation. -/
def IssuesThroughChecks (i : Instr) (s : State) (o : Out State) : Prop := ∃ bad runs body, o = issueWith i s bad runs body

theorem issueWith_throughChecks (i : Instr) (s : State) (bad : Group → List Nat) (runs : Group → List RegRun)
    (body : Group → Mask → Res State) : IssuesThroughChecks i s (issueWith i s bad runs body) := ⟨bad, runs, body, rfl⟩
theorem issue_throughChecks (i : Instr) (s : State) (body : Group → Mask → Res State) : IssuesThroughChecks i s (issue i s body) :=
  issueWith_throughChecks i s (fun _ => []) (fun _ => []) body
theorem groupWord_throughChecks (i : Instr) (s : State) (f : Group → Mask → Res Group) :
    IssuesThroughChecks i s (groupWord i s f) := issue_throughChecks i s _
theorem stateWord_throughChecks (i : Instr) (s : State) (f : Group → Mask → Res State) :
    IssuesThroughChecks i s (stateWord i s f) := issue_throughChecks i s _

/-! The operations that several rows share. -/

theorem mqrpl_throughChecks (i : Instr) (r : RWord) (s : State) : IssuesThroughChecks i s (mqrpl i r s) := stateWord_throughChecks i s _
theorem csrWord_throughChecks (i : Instr) (r : IWord) (s : State) : IssuesThroughChecks i s (csrWord i r s) :=
  stateWord_throughChecks i s _
theorem swapout_throughChecks (i : Instr) (r : RWord) (s : State) : IssuesThroughChecks i s (swapout i r s) :=
  stateWord_throughChecks i s _
theorem sigpost_throughChecks (i : Instr) (r : RWord) (s : State) : IssuesThroughChecks i s (sigpost i r s) :=
  stateWord_throughChecks i s _
theorem preemptWord_throughChecks (i : Instr) (r : RWord) (s : State) : IssuesThroughChecks i s (preemptWord i r s) :=
  stateWord_throughChecks i s _
theorem ptinv_throughChecks (i : Instr) (r : RWord) (s : State) : IssuesThroughChecks i s (ptinv i r s) := stateWord_throughChecks i s _
theorem tcpin_throughChecks (i : Instr) (r : RWord) (s : State) : IssuesThroughChecks i s (tcpin i r s) := stateWord_throughChecks i s _

/-- A privileged word is that of a row of R50 or a word that is no instruction, and every row of R50 issues through the checks. -/
theorem exec_of_privileged {i : Instr} (s : State) (he : (encode i).isSome = true) (hf : (wordOf i).getLsbD 63 = false)
    (hp : privileged (opField (wordOf i)) = true) :
    (∃ w reason h0 h1, i = .illegalWord w reason h0 h1) ∨ IssuesThroughChecks i s (exec i s) := by
  cases i with
  | illegalWord w reason h0 h1 => exact .inl ⟨w, reason, h0, h1, rfl⟩
  | sret r => exact .inr (show IssuesThroughChecks _ s (execSret r s) from issueWith_throughChecks _ s _ _ _)
  | csrrd r => exact .inr (show IssuesThroughChecks _ s (execCsrrd r s) from groupWord_throughChecks _ s _)
  | mqpop r => exact .inr (show IssuesThroughChecks _ s (execMqpop r s) from stateWord_throughChecks _ s _)
  | vsrd r => exact .inr (show IssuesThroughChecks _ s (execVsrd r s) from stateWord_throughChecks _ s _)
  | vswr r => exact .inr (show IssuesThroughChecks _ s (execVswr r s) from stateWord_throughChecks _ s _)
  | swapin r => exact .inr (show IssuesThroughChecks _ s (execSwapin r s) from stateWord_throughChecks _ s _)
  | hqput r => exact .inr (show IssuesThroughChecks _ s (execHqput r s) from stateWord_throughChecks _ s _)
  | halt r => exact .inr (show IssuesThroughChecks _ s (execHalt r s) from stateWord_throughChecks _ s _)
  | mqrplRetry r | mqrplNext r | mqrplPark r | mqrplResume r | mqrplFail r | mqrplAck r => exact .inr (mqrpl_throughChecks _ r s)
  | csrwr r | wdpet r => exact .inr (csrWord_throughChecks _ r s)
  | swapoutReturn r | swapoutStop r | swapoutDiscard r => exact .inr (swapout_throughChecks _ r s)
  | sigpostUser r | sigpostStop r | sigpostCont r | sigpostKill r => exact .inr (sigpost_throughChecks _ r s)
  | preempt r | preemptRelease r => exact .inr (preemptWord_throughChecks _ r s)
  | ptinvRange r | ptinvAsid r | ptinvPartition r => exact .inr (ptinv_throughChecks _ r s)
  | tcpin r | tcpinUnpin r => exact .inr (tcpin_throughChecks _ r s)
  | pairWord p => cases hf.symm.trans (packPair_not_full p)
  | hintUnimplemented code r =>
    have hop : opField (wordOf (.hintUnimplemented code r)) = _ := op_packR _ r
    rw [hop, not_privileged_hint] at hp
    cases hp
  | _ => simp [encode, wordOf, op_packR, op_packI, op_packM, op_packB, privileged] at he hp

/-- Slot 0 neither stops nor waits before a privileged word of a user group, so the word traps at its checks. -/
theorem trapsIn_of_throughChecks {i : Instr} {s : State} {g : Group} (h : IssuesThroughChecks i s (exec i s))
    (hg : s.group? s.cur.key = some g) (hu : g.isSup = false) (hf : (wordOf i).getLsbD 63 = false)
    (hp : privileged (opField (wordOf i)) = true) (h0 : s.cur.slot1 = false) :
    TrapsIn i s g (opTrap 3 (wordOf i) (g.mask s.cur.slot1)) := by
  obtain ⟨bad, runs, body, h⟩ := h
  unfold TrapsIn
  rw [h]
  exact issueWith_traps bad runs body hg (by simp [h0]) (fun _ => .inr (.inr (slot0Waits_of_privileged hp)))
    (decodeChecks_privileged _ _ _ hu hf hp)
/-- A word that is no instruction traps PRIVILEGE too where its code is privileged (R57). -/
theorem illegalWord_traps_privilege {w : DWord} {reason : Nat} {h0 h1 : Bool} {s : State} {g : Group}
    (hg : s.group? s.cur.key = some g) (hu : g.isSup = false) (hf : w.getLsbD 63 = false) (hp : privileged (opField w) = true)
    (hs : s.cur.slot1 = false) : TrapsIn (.illegalWord w reason h0 h1) s g (opTrap 3 w (g.mask s.cur.slot1)) := by
  show execIllegalWord w reason h0 h1 s = _
  unfold execIllegalWord
  rw [hg]
  simp only [hs, hu, hf, hp, slot0Waits_of_privileged hp]
  simp [finish_trap _ hg, hs]

/-- Settles O8: every privileged row issues through `decodeChecks`, whose first answer is PRIVILEGE and which answers it for no other word. -/
theorem privilegeTrap : Obligations.PrivilegeTrap := by
  unfold Obligations.PrivilegeTrap
  refine ⟨fun i s g hg hu he hf hp hs => ?_, fun i g slot1 bad runs t hw h h3 => ?_, privileged_iff⟩
  · have hmask : g.mask s.cur.slot1 = g.mask0 := by rw [hs]; rfl
    rw [← hmask]
    obtain ⟨w, reason, h0, h1, rfl⟩ | hi := exec_of_privileged s he hf hp
    · exact illegalWord_traps_privilege hg hu hf hp hs
    · exact trapsIn_of_throughChecks hi hg hu hf hp hs
  · obtain ⟨hfull, -, hp, -⟩ | hc := decodeChecks_cause h
    · simp only [hfull, hp, Bool.false_eq_true, reduceCtorEq, or_self] at hw
    · omega

end Sys2Proof.Machine
end

section
/-! SUPPORT. The supervisor's trap (R288) and its return (R305): what they write and what they leave, and that fencing a core (R316) leaves
it fenced, since nothing that goes on with the loss of its blocks touches any core's fence. -/
namespace Sys2Proof.Machine
open Sys2Proof.Claims

/-! ## What keeps the fences -/

/-- Whether core c is fenced; none outside the device. -/
def State.fence? (s : State) (c : Nat) : Option Bool := (aget? c s.cores).map Core.fenced

theorem fence?_of_some {s : State} {c : Nat} {k : Core} (h : aget? c s.cores = some k) : s.fence? c = some k.fenced := by
  simp only [State.fence?, h, Option.map_some]
theorem fenced_of_fence? {s : State} {c : Nat} (h : s.fence? c = some true) : (s.core c).fenced = true := by
  obtain ⟨k, hk, hf⟩ := Option.map_eq_some_iff.1 h
  rwa [core_of_some hk]
theorem fence?_modCore (s : State) (c d : Nat) {f : Core → Core} (hf : ∀ k, (f k).fenced = k.fenced) :
    (s.modCore d f).fence? c = s.fence? c := by
  show (aget? c (amod d f s.cores)).map Core.fenced = (aget? c s.cores).map Core.fenced
  rw [aget?_amod]
  split
  · subst c; cases aget? d s.cores <;> simp [hf]
  · rfl
/-- A fold of steps that keep the fence of a core keeps it. -/
theorem fence?_foldl {β : Type} {c : Nat} {f : State → β → State} (hf : ∀ s x, (f s x).fence? c = s.fence? c) (l : List β) (s : State) :
    (l.foldl f s).fence? c = s.fence? c :=
  foldl_keeps (p := fun t : State => t.fence? c = s.fence? c) (fun t x h => (hf t x).trans h) l rfl

theorem fence?_of_cores {s t : State} (h : t.cores = s.cores) (c : Nat) : t.fence? c = s.fence? c := by simp only [State.fence?, h]
@[simp] theorem fence?_setGroup (s : State) (k : Nat) (g : Group) (c : Nat) : (s.setGroup k g).fence? c = s.fence? c := rfl
@[simp] theorem fence?_modBlock (s : State) (b : Nat) (f : Block → Block) (c : Nat) : (s.modBlock b f).fence? c = s.fence? c := rfl
@[simp] theorem fence?_modGrid (s : State) (p q : Nat) (f : Grid → Grid) (c : Nat) : (s.modGrid p q f).fence? c = s.fence? c := rfl
@[simp] theorem fence?_endGangs (s : State) (p k c : Nat) : (s.endGangs p k).fence? c = s.fence? c := rfl

/-! Memory, and the endpoints that stand in it: their writes change no core. -/

@[simp] theorem writePhys_cores (s : State) (a : Nat) (x : Byte) : (s.writePhys a x).cores = s.cores := by
  show (s.backInvalidate a).cores = s.cores
  unfold State.backInvalidate
  split <;> rfl
theorem withMemPoison_cores (s : State) (l : List Nat) : ({ s with memPoison := l }).cores = s.cores := rfl
@[simp] theorem writePhysN_cores (s : State) (a : Nat) (l : List Byte) (poison : Bool) : (s.writePhysN a l poison).cores = s.cores :=
  (withMemPoison_cores _ _).trans
    (foldl_keeps (p := fun t : State => t.cores = s.cores) (fun _ _ h => (writePhys_cores _ _ _).trans h) (List.range l.length) rfl)
@[simp] theorem putParts_cores (s : State) (parts : List (Nat × Nat)) (l : List Byte) : (s.putParts parts l).cores = s.cores := by
  induction parts generalizing s l with
  | nil => rfl
  | cons e parts ih => exact (ih (s.writePhysN e.1 (l.take e.2) false) (l.drop e.2)).trans (writePhysN_cores s _ _ _)
theorem ctx0Write_cores {s t : State} {p : Nat} {va : DWord} {l : List Byte} (h : s.ctx0Write p va l = .ok t) : t.cores = s.cores := by
  unfold State.ctx0Write at h
  cases hm : s.ctx0Map p va l.length true with
  | error e => rw [hm] at h; cases h
  | ok parts => rw [hm] at h; cases h; exact putParts_cores s parts l
/-- An endpoint's record is written as one update, or not at all. The statement names no match, and `eq_1` brings in the model's own, so that
the kernel does not evaluate the write to compare two. -/
theorem setEp_eq (s : State) (p : Nat) (d : Desc) (e : Nat) (r : EpRec) :
    s.setEp p d e r = (s.ctx0Write p (epAddr d e) (epBytes r)).toOption.getD s := by
  rw [State.setEp.eq_1]
  cases s.ctx0Write p (epAddr d e) (epBytes r) <;> rfl
@[simp] theorem setEp_cores (s : State) (p : Nat) (d : Desc) (e : Nat) (r : EpRec) : (s.setEp p d e r).cores = s.cores := by
  rw [setEp_eq]
  generalize hx : s.ctx0Write p (epAddr d e) (epBytes r) = x
  cases x with
  | error => rfl
  | ok t => exact ctx0Write_cores hx
@[simp] theorem logEvent_cores (s : State) (e : Bool) (ty p k : Nat) (x : BitVec 16) (l : List DWord) :
    (s.logEvent e ty p k x l).cores = s.cores := rfl
theorem ite_cores {s t u : State} {q : Prop} [Decidable q] (ht : t.cores = s.cores) (hu : u.cores = s.cores) :
    (if q then t else u).cores = s.cores := by split <;> assumption
/-- Retirement (R262) writes records and events. -/
@[simp] theorem retireEps_cores (s : State) (k : Nat) (x : BitVec 16) (f : EpRec → Bool) : (s.retireEps k x f).cores = s.cores := by
  rw [State.retireEps.eq_1]
  generalize s.rawDesc k x = desc
  cases desc with
  | none => rfl
  | some d =>
    exact foldl_keeps (p := fun t : State => t.cores = s.cores) (fun t e h =>
      have written := (setEp_cores ..).trans h
      ite_cores (ite_cores written ((logEvent_cores ..).trans written)) h) _ rfl

/-! The lists of a core, and the promises of a gang. -/

@[simp] theorem fence?_postMoor (s : State) (k : Nat) (m : Moor) (c : Nat) : (s.postMoor k m).1.fence? c = s.fence? c := by
  unfold State.postMoor
  dsimp only
  split
  · exact fence?_modCore s c k (fun _ => rfl)
  · rfl
@[simp] theorem fence?_postNotice (s : State) (k : Nat) (n : Notice) (c : Nat) : (s.postNotice k n).fence? c = s.fence? c := by
  unfold State.postNotice
  dsimp only
  split <;> exact fence?_modCore s c k (fun _ => rfl)
@[simp] theorem fence?_requestSwap (s : State) (n : Nat) (b : Block) (reason c : Nat) :
    (s.requestSwap n b reason).fence? c = s.fence? c := fence?_postNotice s _ _ c
@[simp] theorem fence?_unreserve (s : State) (k n : Nat) (r : Reserve) (c : Nat) : (s.unreserve k n r).fence? c = s.fence? c :=
  (fence?_modGrid _ _ _ _ c).trans (fence?_modCore s c k (fun _ => rfl))
@[simp] theorem fence?_unpromiseGang (s : State) (p q n c : Nat) : (s.unpromiseGang p q n).fence? c = s.fence? c :=
  fence?_foldl (fun _ _ => fence?_unreserve _ _ _ _ c) _ s
@[simp] theorem fence?_recallGang (s : State) (p q n reason c : Nat) : (s.recallGang p q n reason).fence? c = s.fence? c := by
  refine (fence?_foldl (fun t e => ?_) _ _).trans (fence?_unpromiseGang s p q n c)
  split
  · rfl
  · exact fence?_requestSwap t _ _ _ c
@[simp] theorem fence?_unpromise (s : State) (k reason c : Nat) : (s.unpromise k reason).fence? c = s.fence? c := by
  refine fence?_foldl (fun t q => ?_) _ s
  dsimp only
  split
  · exact fence?_unreserve t _ _ _ c
  · exact fence?_recallGang t _ _ _ _ c
@[simp] theorem fence?_gangLost (s : State) (b : Block) (gang k c : Nat) : (s.gangLost b gang k).fence? c = s.fence? c := by
  refine fence?_foldl (fun t e => ?_) _ s
  refine (fence?_foldl (fun u key => ?_) _ _).trans (fence?_modBlock t _ _ c)
  split
  · split
    · rfl
    · exact (fence?_postMoor _ _ _ c).trans (fence?_setGroup u _ _ c)
  · rfl
theorem withBallast_cores (s : State) (l : List (Nat × (Nat × Nat))) : ({ s with ballast := l }).cores = s.cores := rfl
/-- The loss of a block (R316) fences no core and mends none. -/
@[simp] theorem fence?_loseBlock (s : State) (b : Block) (unit k c : Nat) : (s.loseBlock b unit k).fence? c = s.fence? c := by
  have retired (u : State) (l) : ({ u.retireBlockEps b with ballast := l }).fence? c = u.fence? c :=
    fence?_of_cores ((withBallast_cores _ l).trans (retireEps_cores u _ _ _)) c
  unfold State.loseBlock
  dsimp only
  split
  · rw [fence?_postNotice]
    split <;> simp [retired]
  · split <;> simp [retired]

/-- A core of the device that is fenced (R316) stands fenced after its blocks are lost. -/
theorem fence?_fenceCore {s : State} {c : Nat} {k : Core} (unit : Nat) (h : aget? c s.cores = some k) :
    (s.fenceCore c unit).fence? c = some true := by
  obtain ⟨k', hk', -⟩ := Option.map_eq_some_iff.1 ((fence?_unpromise s c 1 c).trans (fence?_of_some h))
  unfold State.fenceCore
  dsimp only
  rw [fence?_of_cores (logEvent_cores _ _ _ _ _ _ _), fence?_endGangs, fence?_foldl (fun _ _ => fence?_loseBlock _ _ _ _ c)]
  exact fence?_of_some (cores_modCore_self (s := (s.unpromise c 1).modPart _ _) _ hk')

/-! ## The trap of the supervisor group, and its return -/

theorem takeTrapAt_of_isSup {g : Group} (h : g.isSup = true) (s : State) (key : Nat) (slot1 : Bool) (vpc : DWord) (t : Trap) :
    s.takeTrapAt key g slot1 vpc t = s.supTrap key g vpc t := if_pos h
/-- A trap outside a supervisor trap, with SVEC set, is taken at SVEC (R288). -/
theorem supTrap_vectors {s : State} {g : Group} {k : Core} (key : Nat) (vpc : DWord) (t : Trap) (hk : aget? g.core s.cores = some k)
    (hn : k.nest = false) (hv : k.svec ≠ 0) :
    s.supTrap key g vpc t =
      (s.modCore g.core (fun k => { k with scause := t.cause, sdetail := (t.w0, t.w1, t.w2), sepc := vpc, nest := true })).setGroup key
        { g with pc0 := k.svec, wait := .none, young := false, retry0 := Retry.none, pend0 := none } := by
  simp only [State.supTrap, core_of_some hk]
  rw [if_neg (by simpa [hn] using hv)]
/-- A double fault (R288) fences the core. -/
theorem supTrap_doubleFault {s : State} {g : Group} {k : Core} (key : Nat) (vpc : DWord) (t : Trap) (hk : aget? g.core s.cores = some k)
    (hd : k.nest = true ∨ k.svec = 0) :
    s.supTrap key g vpc t = (s.fenceCore g.core (Config.freeNat s.freeCtr)).takeFree 1 := by
  simp only [State.supTrap, core_of_some hk]
  rw [if_pos (by simpa using hd)]

/-- SRET that issues with a lane ACTIVE is the return of R305. -/
theorem execSret_passes {s : State} {g : Group} {m : Mask} {r : RWord}
    (h : IssuesWith (.sret r) s g m (if g.isSup && !(s.core g.core).nest then [5] else []) []) (hm : m ≠ 0) :
    exec (.sret r) s = .next (s.svReturn s.cur.key (g.advance false)) := by
  obtain ⟨hg, h1, -, hc, rfl⟩ := h
  have hp : privileged (opField (wordOf (.sret r))) = true := by
    rw [show opField (wordOf (.sret r)) = _ from op_packR _ r]; rfl
  show execSret r s = _
  unfold execSret
  rw [issueWith_passes _ _ _ hg h1 (fun _ => .inr (.inr (slot0Waits_of_privileged hp))) hc, if_neg hm]
  rfl

/-- Settles O9: outside a supervisor trap with SVEC set, the trap writes the four trap registers of the core and the group's PC; else the
core is fenced, and what follows of its loss leaves it so; SRET is `svReturn`. -/
theorem supervisorTrap : Obligations.SupervisorTrap := by
  unfold Obligations.SupervisorTrap
  refine ⟨fun s key g k slot1 vpc t hs hk => ?_, fun s g m r k hi hm hk => ?_⟩
  · rw [takeTrapAt_of_isSup hs]
    refine ⟨fun hn hv => ?_, fun hd => ?_⟩
    · rw [supTrap_vectors key vpc t hk hn hv]
      exact ⟨core_modCore_self _ hk, fun c hc => cores_modCore_ne s hc _, group?_setGroup_self _ _ _,
        fun x hx => group?_setGroup_ne _ hx _, rfl, rfl⟩
    · rw [supTrap_doubleFault key vpc t hk hd, takeFree_core]
      exact fenced_of_fence? (fence?_fenceCore _ hk)
  · refine ⟨_, _, execSret_passes hi hm, rfl, ⟨group?_setGroup_self _ _ _, fun x hx => group?_setGroup_ne _ hx _⟩,
      congrArg Core.sepc (core_of_some hk), core_modCore_self _ hk, fun c hc => core_modCore_ne s hc _, rfl, rfl, rfl⟩

end Sys2Proof.Machine
end
